-- ==== Sys2Proof/Word.lean ====
section
/-! DEFINITION. The word types of the block (spec/00_scope.md R8): u8, u16, u32 and the 64-bit descriptor. Plain
bit vectors, numbered with bit 0 the least significant bit. -/

namespace Sys2Proof

/-- `u8` of R8: one wire byte, one ROM byte, one colour channel. -/
abbrev Byte := BitVec 8

/-- `u16` of R8: a native colour, a window coordinate, a register value, a delay in milliseconds. -/
abbrev Half := BitVec 16

/-- One 64-bit host operation descriptor (R80). -/
abbrev Descriptor := BitVec 64

/-- One 9-bit wire unit `D bbbbbbbb`, DC first (R86). -/
abbrev WireUnit := BitVec 9

/-- `reg_addr[3:0]` of the register port (R85). -/
abbrev RegAddr := BitVec 4

end Sys2Proof
end

