-- ==== Sys2Proof/Config.lean ====
section
/-! DEFINITION. What an instance of the block fixes (spec/00_scope.md R6, R7; spec/93 part 3): straps, command
codes, ROM image, reset-pulse times; the constants of the hardware; the values the spec leaves open. A configuration is
plain data (State carries one, and no step writes it), so a statement about every state is a statement about every
configuration. -/

namespace Sys2Proof

/-- A ROM entry as a record (R99): command byte, at most 15 data bytes, delay in milliseconds when CTL's D bit is 1. -/
structure RomEntry where
  cmd : Byte
  data : List Byte
  delay : Option Half
  deriving DecidableEq, Repr

/-- The ten command codes, each a parameter (R6, R88 to R97). -/
structure CmdCodes where
  swreset : Byte
  slpout : Byte
  noron : Byte
  invon : Byte
  dispon : Byte
  caset : Byte
  raset : Byte
  ramwr : Byte
  madctl : Byte
  colmod : Byte
  deriving DecidableEq, Repr

/-- The codes in the order of R88 to R97. -/
def CmdCodes.all (c : CmdCodes) : List Byte :=
  [c.swreset, c.slpout, c.noron, c.invon, c.dispon, c.caset, c.raset, c.ramwr, c.madctl, c.colmod]

/-- No two commands share a code. The spec never says that they differ; its defaults do (log 20). -/
abbrev CmdCodes.Distinct (c : CmdCodes) : Prop := c.all.Nodup

/-- The defaults of R88 to R97. PRESUMED by the spec itself ([from general knowledge, not in source], G1); log 2. -/
def CmdCodes.default : CmdCodes where
  swreset := 0x01
  slpout := 0x11
  noron := 0x13
  invon := 0x21
  dispon := 0x29
  caset := 0x2A
  raset := 0x2B
  ramwr := 0x2C
  madctl := 0x36
  colmod := 0x3A

/-- The parameters of an instance (R6, R7, R32, R130). The ROM is held as its byte image and `ROM_ENTRIES` (R100). -/
structure Config where
  hasRst : Bool
  hasBl : Bool
  swapRb : Bool
  codes : CmdCodes
  romImage : List Byte
  romEntries : Nat
  tRstLow : Half
  tRstRecover : Half
  deriving DecidableEq, Repr

/-- The test-vector configuration (D40, R140, spec/95 section 2.4): both optional pins, `SWAP_RB` = 0, the reference
composition with an empty tuning table, reference delays. DESIGN CHOICE, log 1. -/
def Config.reference : Config where
  hasRst := true
  hasBl := true
  swapRb := false
  codes := CmdCodes.default
  romImage := [0x01, 0x80, 0x00, 0x78, 0x11, 0x80, 0x00, 0x78, 0x3A, 0x01, 0x55, 0x36, 0x01, 0x08,
    0x21, 0x80, 0x00, 0x0A, 0x13, 0x80, 0x00, 0x0A, 0x29, 0x80, 0x00, 0x78]
  romEntries := 7
  tRstLow := 10
  tRstRecover := 120

/-- `PANEL_W` = `PANEL_H` = 240 (R6). -/
def panelSide : Nat := 240

/-- `FILL_COUNT` = 57600 (R6). -/
def fillCount : BitVec 32 := 57600

/-- `COLMOD_DATA`, a constant of the hardware (R6, R134). -/
def colmodData : Byte := 0x55

/-- `DISPLAY_TYPE_COLOR` (R6, R37). -/
def displayTypeColor : Half := 0x0001

/-- The operand latches of R21, but for `NATIVE_LATCH`. -/
structure Latches where
  opc : BitVec 4
  x : Half
  y : Half
  cr : Byte
  cg : Byte
  cb : Byte
  deriving DecidableEq, Repr, Inhabited

namespace Config

/-- FREE VALUE: what the operand latches hold after a warm reset ("After reset their values are unspecified", R21),
drawn at the `n`-th draw. No body: nothing can be proved of it. Log 5. -/
opaque freeLatches : Nat → Latches

/-- FREE VALUE: what `NATIVE_LATCH` holds after a warm reset (R21). Log 5. -/
opaque freeNativeLatch : Nat → Half

end Config

end Sys2Proof
end

