-- ==== Sys2Proof/Syntax.lean ====
section
/-! DEFINITION. The instruction type: one constructor for each row of spec/opcode_table.json, in the table's order. -/

namespace Sys2Proof

/-- Host operations (R81), the illegal descriptors of the table, the register read (R85), the micro-operations (R109),
the ROM entry (R99) and the wire units (R86 to R98). -/
inductive Instr where
  /-- SETUP (R191). -/
  | setup
  /-- UPDATE (R192). -/
  | update
  /-- DUMP_CONFIG (R193). -/
  | dumpConfig
  /-- FILL r, g, b (R165). -/
  | fill (r g b : Byte)
  /-- PIXEL x, y, r, g, b (R164); the coordinates are the two's-complement fields XF and YF (R82). -/
  | pixel (x y : Half) (r g b : Byte)
  /-- CONVERT r, g, b (R185). -/
  | convert (r g b : Byte)
  /-- A descriptor with OPC = 0x0 (R214); `rest` is W[59:0]. -/
  | illegalOpc0 (rest : BitVec 60)
  /-- A descriptor with OPC = 0x7 (R214); `rest` is W[59:0]. -/
  | illegalOpc7 (rest : BitVec 60)
  /-- A descriptor with OPC = 0x8 to 0xF (R214); `rest` is W[62:0]. -/
  | illegalOpc8F (rest : BitVec 63)
  /-- READ addr (R85). -/
  | read (a : RegAddr)
  /-- SEND_COMMAND(b) (R113). -/
  | sendCommand (b : Byte)
  /-- SEND_DATA(b) (R114). -/
  | sendData (b : Byte)
  /-- SEND_DATA16(w) (R115). -/
  | sendData16 (w : Half)
  /-- SEND_COLOR_RUN(c, n) (R116); n is a u32. -/
  | sendColorRun (c : Half) (n : BitVec 32)
  /-- SET_ADDRESS_WINDOW(x1, y1, x2, y2) (R161). -/
  | setAddressWindow (x1 y1 x2 y2 : Half)
  /-- REG_WRITE(e) (R136). -/
  | regWrite (e : RomEntry)
  /-- RUN_INIT (R137). -/
  | runInit
  /-- HW_RESET_PULSE (R138). -/
  | hwResetPulse
  /-- TO_NATIVE(r, g, b) (R184). -/
  | toNative (r g b : Byte)
  /-- One ROM record: the header CMD, CTL and the data and delay bytes the header announces (R99). -/
  | romEntry (e : RomEntry)
  /-- SWRESET (R88). -/
  | swreset
  /-- SLPOUT (R89). -/
  | slpout
  /-- NORON (R90). -/
  | noron
  /-- INVON (R91). -/
  | invon
  /-- DISPON (R92). -/
  | dispon
  /-- CASET, the command unit (R93). -/
  | caset
  /-- RASET, the command unit (R94). -/
  | raset
  /-- RAMWR, the command unit (R95). -/
  | ramwr
  /-- MADCTL, the command unit (R96). -/
  | madctl
  /-- COLMOD, the command unit (R97). -/
  | colmod
  /-- Any other command byte (R98). -/
  | tuningCommand (c : Byte)
  /-- A data unit (1, d) (R86). -/
  | wireData (d : Byte)
  deriving DecidableEq, Repr

end Sys2Proof
end

