-- ==== Sys2Proof/WellFormed.lean ====
section
/-! DEFINITION. Which instructions the encodings of the spec admit: the ROM entry bounds of R99 and the "every other
command byte" of R98. Every other operand is admitted at every value of its width. -/

namespace Sys2Proof

/-- R99: at most 15 data bytes, and a delay, when present, in 1..65535 ms. -/
def RomEntry.wellFormed (e : RomEntry) : Bool :=
  e.data.length ≤ 15 && e.delay != some 0

/-- The check, for the instance's command codes: ROM entries by R99; a tuning command is a byte that is none of the ten
codes (R98: "Every other command byte"). -/
def Instr.wellFormed (codes : CmdCodes) : Instr → Bool
  | .regWrite e => e.wellFormed
  | .romEntry e => e.wellFormed
  | .tuningCommand c => !codes.all.contains c
  | .setup | .update | .dumpConfig | .fill _ _ _ | .pixel _ _ _ _ _ | .convert _ _ _
  | .illegalOpc0 _ | .illegalOpc7 _ | .illegalOpc8F _ | .read _
  | .sendCommand _ | .sendData _ | .sendData16 _ | .sendColorRun _ _ | .setAddressWindow _ _ _ _
  | .runInit | .hwResetPulse | .toNative _ _ _
  | .swreset | .slpout | .noron | .invon | .dispon | .caset | .raset | .ramwr | .madctl | .colmod
  | .wireData _ => true

end Sys2Proof
end

