-- ==== Sys2Proof/Decode.lean ====
section
/-! DEFINITION. Encodings (spec/30_encoding.md): the host descriptor (R80 to R84, R107), the register address (R85),
the wire unit (R86 to R98) and the ROM record (R99, R100, R102). Decoders, total and rejecting by name, then the
encoder from the same tables. -/

namespace Sys2Proof

/-! ### Byte order (R51, R52, R87, R99): a 16-bit value is two bytes, the high one first. -/

/-- The 16-bit value whose first byte is `h` and second byte `l`. -/
def joinBytes (h l : Byte) : Half := h ++ l

/-- `w[15:8]`. -/
def hiByte (w : Half) : Byte := w.extractLsb' 8 8

/-- `w[7:0]`. -/
def loByte (w : Half) : Byte := w.extractLsb' 0 8

/-! ### What can be presented to a decoder -/

/-- An encoded instruction, at the place where the spec encodes it: a descriptor of the operation port (R80), an address
of the register port (R85), a unit of the wire (R86), a record of the ROM (R99). -/
inductive Code where
  | descriptor (w : Descriptor)
  | regAddr (a : RegAddr)
  | unit (u : WireUnit)
  | romRecord (bytes : List Byte)
  deriving DecidableEq, Repr

/-- Why a decoder rejects. -/
inductive Reject where
  /-- A descriptor of OPC 0x1 to 0x6 with a field R80 marks "must be 0" non-zero: ILLEGAL (R101, R107). -/
  | reservedField
  /-- CTL[6:4] is not 0 (R99, R102). -/
  | romReservedCtl
  /-- D = 1 and DELAY_MS = 0 (R102). -/
  | romZeroDelay
  /-- The image ends inside an entry (R102). -/
  | romTruncated
  /-- Bytes remain after the last entry (R102). -/
  | romTrailing
  deriving DecidableEq, Repr

/-- What a decoder answers. -/
inductive Decoded (α : Type) where
  | ok (a : α)
  | rejected (r : Reject)
  deriving DecidableEq, Repr

/-! ### Host descriptor -/

/-- OPC = W[63:60] (R80). -/
def descOpc (w : Descriptor) : BitVec 4 := w.extractLsb' 60 4
/-- XF = W[55:40] (R80, R82). -/
def descX (w : Descriptor) : Half := w.extractLsb' 40 16
/-- YF = W[39:24] (R80, R82). -/
def descY (w : Descriptor) : Half := w.extractLsb' 24 16
/-- RF = W[23:16] (R80). -/
def descR (w : Descriptor) : Byte := w.extractLsb' 16 8
/-- GF = W[15:8] (R80). -/
def descG (w : Descriptor) : Byte := w.extractLsb' 8 8
/-- BF = W[7:0] (R80). -/
def descB (w : Descriptor) : Byte := w.extractLsb' 0 8

/-- An operation if its must-be-0 field is 0, rejected otherwise (R84, R101). -/
def unlessReserved (zero : Bool) (i : Instr) : Decoded Instr :=
  if zero then .ok i else .rejected .reservedField

/-- The decoder of R107. OPC 0x0 and 0x7 to 0xF are rows of the opcode table; the ILLEGAL words of OPC 0x1 to 0x6 are
rejected by name, and the step gives them the same effect (R214; log 17). -/
def decodeDescriptor (w : Descriptor) : Decoded Instr :=
  match (descOpc w).toNat with
  | 0 => .ok (.illegalOpc0 (w.extractLsb' 0 60))
  | 1 => unlessReserved (w.extractLsb' 0 60 == 0) .setup
  | 2 => unlessReserved (w.extractLsb' 0 60 == 0) .update
  | 3 => unlessReserved (w.extractLsb' 0 60 == 0) .dumpConfig
  | 4 => unlessReserved (w.extractLsb' 24 36 == 0) (.fill (descR w) (descG w) (descB w))
  | 5 => unlessReserved (w.extractLsb' 56 4 == 0) (.pixel (descX w) (descY w) (descR w) (descG w) (descB w))
  | 6 => unlessReserved (w.extractLsb' 24 36 == 0) (.convert (descR w) (descG w) (descB w))
  | 7 => .ok (.illegalOpc7 (w.extractLsb' 0 60))
  | _ => .ok (.illegalOpc8F (w.extractLsb' 0 63))

/-! ### Wire unit -/

/-- The named command of a command byte under the instance's codes, `tuningCommand` for every other byte (R88 to R98). -/
def decodeCommand (codes : CmdCodes) (b : Byte) : Instr :=
  if b = codes.swreset then .swreset
  else if b = codes.slpout then .slpout
  else if b = codes.noron then .noron
  else if b = codes.invon then .invon
  else if b = codes.dispon then .dispon
  else if b = codes.caset then .caset
  else if b = codes.raset then .raset
  else if b = codes.ramwr then .ramwr
  else if b = codes.madctl then .madctl
  else if b = codes.colmod then .colmod
  else .tuningCommand b

/-- `D bbbbbbbb`: D = 0 a command byte, D = 1 a data byte (R86). -/
def decodeUnit (codes : CmdCodes) (u : WireUnit) : Instr :=
  if u.getLsbD 8 then .wireData (u.extractLsb' 0 8) else decodeCommand codes (u.extractLsb' 0 8)

/-! ### ROM record -/

/-- N = CTL[3:0] (R99). -/
def ctlCount (ctl : Byte) : Nat := (ctl.extractLsb' 0 4).toNat
/-- D = CTL[7] (R99). -/
def ctlDelay (ctl : Byte) : Bool := ctl.getLsbD 7
/-- CTL[6:4], reserved (R99). -/
def ctlReserved (ctl : Byte) : BitVec 3 := ctl.extractLsb' 4 3

/-- The delay field at the end of a record with D = 1, and the bytes after it (R99, R102). -/
def decodeDelay (cmd : Byte) (data : List Byte) : List Byte → Decoded (RomEntry × List Byte)
  | h :: l :: rest =>
    if joinBytes h l = 0 then .rejected .romZeroDelay else .ok (⟨cmd, data, some (joinBytes h l)⟩, rest)
  | _ => .rejected .romTruncated

/-- The first record of a byte string, and the bytes after it (R99, R100, R102). -/
def decodeRomEntry : List Byte → Decoded (RomEntry × List Byte)
  | cmd :: ctl :: rest =>
    if ctlReserved ctl ≠ 0 then .rejected .romReservedCtl
    else if rest.length < ctlCount ctl then .rejected .romTruncated
    else if ctlDelay ctl then decodeDelay cmd (rest.take (ctlCount ctl)) (rest.drop (ctlCount ctl))
    else .ok (⟨cmd, rest.take (ctlCount ctl), none⟩, rest.drop (ctlCount ctl))
  | _ => .rejected .romTruncated

/-- The decoder of the ROM image (R100): exactly `n` records and nothing after them (R102). -/
def decodeRom : Nat → List Byte → Decoded (List RomEntry)
  | 0, [] => .ok []
  | 0, _ :: _ => .rejected .romTrailing
  | n + 1, bytes =>
    match decodeRomEntry bytes with
    | .rejected r => .rejected r
    | .ok (e, rest) =>
      match decodeRom n rest with
      | .rejected r => .rejected r
      | .ok es => .ok (e :: es)

/-- One record with nothing after it, as an instruction. -/
def decodeRomRecord (bytes : List Byte) : Decoded Instr :=
  match decodeRomEntry bytes with
  | .rejected r => .rejected r
  | .ok (e, []) => .ok (.romEntry e)
  | .ok (_, _ :: _) => .rejected .romTrailing

/-! ### The decoder -/

/-- Total on whatever is presented: the instruction, or the rejection by name. -/
def decode (codes : CmdCodes) : Code → Decoded Instr
  | .descriptor w => decodeDescriptor w
  | .regAddr a => .ok (.read a)
  | .unit u => .ok (decodeUnit codes u)
  | .romRecord bytes => decodeRomRecord bytes

/-! ### The encoder -/

/-- The descriptor of R80 from its fields; RSV is 0. -/
def descriptorOf (opc : BitVec 4) (x y : Half) (r g b : Byte) : Descriptor :=
  opc ++ (0#4) ++ x ++ y ++ r ++ g ++ b

/-- The unit `(0, b)` (R86). -/
def commandUnit (b : Byte) : WireUnit := (0#1) ++ b

/-- The unit `(1, b)` (R86). -/
def dataUnit (b : Byte) : WireUnit := (1#1) ++ b

/-- CTL of an entry: D, 000, N (R99). -/
def ctlByte (e : RomEntry) : Byte :=
  BitVec.ofBool e.delay.isSome ++ (0#3) ++ BitVec.ofNat 4 e.data.length

/-- The record of an entry (R99). -/
def encodeRomEntry (e : RomEntry) : List Byte :=
  e.cmd :: ctlByte e :: e.data ++
    match e.delay with
    | none => []
    | some d => [hiByte d, loByte d]

/-- The image of a ROM: the records one after another (R100). -/
def encodeRom : List RomEntry → List Byte
  | [] => []
  | e :: es => encodeRomEntry e ++ encodeRom es

/-- The encoding of an instruction, where the spec gives it one; a micro-operation has none (R109). -/
def encode (codes : CmdCodes) : Instr → Option Code
  | .setup => some (.descriptor (descriptorOf 1 0 0 0 0 0))
  | .update => some (.descriptor (descriptorOf 2 0 0 0 0 0))
  | .dumpConfig => some (.descriptor (descriptorOf 3 0 0 0 0 0))
  | .fill r g b => some (.descriptor (descriptorOf 4 0 0 r g b))
  | .pixel x y r g b => some (.descriptor (descriptorOf 5 x y r g b))
  | .convert r g b => some (.descriptor (descriptorOf 6 0 0 r g b))
  | .illegalOpc0 rest => some (.descriptor ((0x0#4) ++ rest))
  | .illegalOpc7 rest => some (.descriptor ((0x7#4) ++ rest))
  | .illegalOpc8F rest => some (.descriptor ((1#1) ++ rest))
  | .read a => some (.regAddr a)
  | .sendCommand _ | .sendData _ | .sendData16 _ | .sendColorRun _ _ | .setAddressWindow _ _ _ _
  | .regWrite _ | .runInit | .hwResetPulse | .toNative _ _ _ => none
  | .romEntry e => some (.romRecord (encodeRomEntry e))
  | .swreset => some (.unit (commandUnit codes.swreset))
  | .slpout => some (.unit (commandUnit codes.slpout))
  | .noron => some (.unit (commandUnit codes.noron))
  | .invon => some (.unit (commandUnit codes.invon))
  | .dispon => some (.unit (commandUnit codes.dispon))
  | .caset => some (.unit (commandUnit codes.caset))
  | .raset => some (.unit (commandUnit codes.raset))
  | .ramwr => some (.unit (commandUnit codes.ramwr))
  | .madctl => some (.unit (commandUnit codes.madctl))
  | .colmod => some (.unit (commandUnit codes.colmod))
  | .tuningCommand c => some (.unit (commandUnit c))
  | .wireData d => some (.unit (dataUnit d))

/-! ### The opcode table's numbering -/

/-- A record with header `cmd`, `ctl` and, after it, the data and delay bytes the header announces, all 0. -/
def zeroRecord (cmd ctl : Byte) : List Byte :=
  cmd :: ctl :: List.replicate (ctlCount ctl + if ctlDelay ctl then 2 else 0) 0

/-- What the table's bits are presented to. The table has rows of four places (host descriptor 64 bits, register address
4, wire unit 9, ROM header 16), and in whole bytes a wire unit and a ROM header are both 16 bits. DESIGN CHOICE (log 13):
a 16-bit word from 1 to 0x1FF is the wire unit, every other one the ROM header, whose bits the table numbers
CMD = 15..8 and CTL = 7..0. -/
def tableCode (nbits w : Nat) : Option Code :=
  if nbits = 64 then
    if w < 2 ^ 64 then some (.descriptor (BitVec.ofNat 64 w)) else none
  else if nbits = 4 ∨ nbits = 8 then
    if w < 16 then some (.regAddr (BitVec.ofNat 4 w)) else none
  else if nbits = 9 ∨ (nbits = 16 ∧ w ≠ 0 ∧ w < 512) then
    if w < 512 then some (.unit (BitVec.ofNat 9 w)) else none
  else if nbits = 16 then
    if w < 2 ^ 16 then some (.romRecord (zeroRecord (BitVec.ofNat 8 (w / 256)) (BitVec.ofNat 8 w))) else none
  else none

/-- The instruction the decoder reads from the bits `w` of an opcode-table row, under the default command codes the
table prints. -/
def decodeTableWord (nbits w : Nat) : Option Instr :=
  match tableCode nbits w with
  | none => none
  | some c =>
    match decode CmdCodes.default c with
    | .ok i => some i
    | .rejected _ => none

end Sys2Proof
end

