-- ==== Sys2Proof/Machine/State.lean ====
section
/-! DEFINITION. The state of the machine as plain data (spec/10_state.md, 20_memory.md R55, 00_scope.md R10): the block's
fields, its ports, the trace, the ghost state, the outside's scripts, and the state after power-on reset. -/

namespace Sys2Proof.Machine

/-! ### Events and what makes them -/

/-- The three output pins (R3, R111). -/
inductive Pin where
  | dc | rst | bl
  deriving DecidableEq, Repr

/-- The four calls of the byte transport (R110). -/
inductive TCall where
  /-- `configure()`. -/
  | cfg
  /-- `begin_frame()`. -/
  | frameBegin
  /-- `write_byte(b)`. -/
  | write (b : Byte)
  /-- `end_frame()`. -/
  | frameEnd
  deriving DecidableEq, Repr

/-- The reasons of a delay (R112). -/
inductive WaitReason where
  | settle | rstLow | rstRecover
  deriving DecidableEq, Repr

/-- The one warning (R10, R192). -/
inductive WarnCode where
  | notReady
  deriving DecidableEq, Repr

/-- The device-side events of R10. -/
inductive Event where
  /-- TCfg. -/
  | tCfg
  /-- PinCfg(p). -/
  | pinCfg (p : Pin)
  /-- Pin(p, l). -/
  | pin (p : Pin) (l : Bool)
  /-- Begin. -/
  | frameBegin
  /-- Byte(b). -/
  | byte (b : Byte)
  /-- End. -/
  | frameEnd
  /-- Wait(k, ms). -/
  | wait (k : WaitReason) (ms : Half)
  /-- TFail(c). -/
  | tFail (c : TCall)
  /-- Warn(w). -/
  | warn (w : WarnCode)
  /-- Report(snap): the registers 0x0 to 0x7 in order (R193). -/
  | report (snap : List Half)
  deriving DecidableEq, Repr

/-- One primitive act of a running operation: a primitive of R110 to R112, an assignment of the pseudocode, or a group of
assignments that the model takes as one (the sticky bits at SETUP's entry, completion). The list of acts still to do is the
block's position in the work (R22). Which groups are one act: DESIGN CHOICE, log 7. -/
inductive Act where
  /-- PinConfigure(p) (R111). -/
  | pinConfigure (p : Pin)
  /-- PinWrite(p, l) (R111). -/
  | pinWrite (p : Pin) (l : Bool)
  /-- Tcall(c) (R110). -/
  | tcall (c : TCall)
  /-- Wait(k, ms) (R112). -/
  | wait (k : WaitReason) (ms : Half)
  /-- READY <- v (R191). -/
  | setReady (v : Bool)
  /-- The three sticky bits <- 0 (R191): one act (log 7). -/
  | clearSticky
  /-- ERR_ILLEGAL_OP <- 1 (R214). -/
  | setIllegalOp
  /-- emit Warn(NOT_READY) (R192). -/
  | emitWarn
  /-- WARN_NOT_READY <- 1 (R192). -/
  | setWarn
  /-- emit Report(snap) (R193). -/
  | emitReport
  /-- ROM_IDX <- 0 (R137). -/
  | romStart
  /-- ROM_IDX <- ROM_IDX + 1 (R137). -/
  | romNext
  /-- RUN_CNT <- n (R116). -/
  | runLoad (n : BitVec 32)
  /-- RUN_CNT <- RUN_CNT - 1 (R116). -/
  | runNext
  /-- The converter computes TO_NATIVE(r, g, b) on its output (R184). -/
  | convert (r g b : Byte)
  /-- NATIVE_LATCH <- the converter's output (R164, R165). -/
  | latchNative
  /-- NATIVE_RESULT <- the converter's output (R185). -/
  | storeNative
  /-- The operation completes with a status code: SEQ <- IDLE, op_done, op_status (R190). -/
  | complete (status : BitVec 4)
  deriving DecidableEq, Repr

/-! ### The outside -/

/-- The transport's answer to one call (R110): OK, FAIL, or no answer ever (R220). -/
inductive Answer where
  | ok | fail | never
  deriving DecidableEq, Repr

/-- The transport oracle (R6) as data: the coming answers, and the answer to every call after them (log 3). -/
structure Transport where
  script : List Answer
  rest : Answer
  deriving DecidableEq, Repr

/-- What the outside presents to the machine. -/
inductive Input where
  /-- An encoded instruction at its place: a descriptor on the operation port (R190), an address on the register port
  (R85), and, from the bench only, a wire unit or a ROM record (log 11, 12). -/
  | code (c : Code)
  /-- The level `rst_n` is driven to from here on (R240, R242). -/
  | rstN (l : Bool)
  /-- Nothing, for one turn: the block goes on with its work, and what is listed next comes at the turn after (R44: a read
  "can be made at any time", so reads can fall at several points of one operation; log 6). -/
  | pass
  deriving DecidableEq, Repr

/-- SEQ (R22). -/
inductive Seq where
  | idle | busy
  deriving DecidableEq, Repr

/-! ### Ghost state (R33) -/

/-- The names of R219, in its order. -/
inductive GhostFault where
  | transport
  | byteDuringReset
  | settleViolation
  | oddPixelByte
  | dataWithoutCommand
  | extraParam
  | staleWindow
  | windowUnset
  | windowInvalid
  | windowOverrun
  | abortedByReset
  deriving DecidableEq, Repr

/-- `P.status` (R55). -/
inductive PanelStatus where
  | live | corrupt
  deriving DecidableEq, Repr

/-- `P.cur` (R55): NONE, AT(x, y), DONE. -/
inductive Cursor where
  | unset
  | cell (x y : Nat)
  | done
  deriving DecidableEq, Repr

/-- The panel's display memory: bytes by address, strictly rising, an unlisted byte unknown. Cell (x, y) is two bytes
(log 16). -/
abbrev Memory := List Host.Cell

/-- The panel observation state `P` (R55). `regs` lists the entries that are not none, by command byte. -/
structure Panel where
  status : PanelStatus
  rstHeld : Bool
  cmd : Option Byte
  args : List Byte
  regs : List (Nat × List Byte)
  colWin : Option (Half × Half)
  rowWin : Option (Half × Half)
  colFresh : Bool
  rowFresh : Bool
  cur : Cursor
  pend : Option Byte
  colmod : Option Byte
  settle : Nat
  gram : Memory
  deriving DecidableEq, Repr

/-- P0 (R56). -/
def Panel.initial : Panel where
  status := .live
  rstHeld := false
  cmd := none
  args := []
  regs := []
  colWin := none
  rowWin := none
  colFresh := false
  rowFresh := false
  cur := .unset
  pend := none
  colmod := none
  settle := 0
  gram := []

/-- The two pieces of ghost state of R33: `P` and `GHOST_FAULTS` (each name at most once, in the order of R219). -/
structure Ghost where
  panel : Panel
  faults : List GhostFault
  deriving DecidableEq, Repr

/-! ### The state -/

/-- The machine. INVENTORY.md lists every field with its rule. -/
structure State where
  /-- The instance's parameters (R6, R7); no step writes them. -/
  cfg : Config
  /-- SEQ (R22). -/
  seq : Seq
  /-- The acts still to do of the operation in progress (R22). -/
  work : List Act
  /-- The transport call the block is held in, never to be answered (R220). -/
  held : Option TCall
  /-- ROM_IDX (R23). -/
  romIdx : Nat
  /-- RUN_CNT (R24). -/
  runCnt : BitVec 32
  /-- FRAME_OPEN (R25). -/
  frameOpen : Bool
  /-- READY (R26). -/
  ready : Bool
  /-- ERR_TRANSPORT (R27). -/
  errTransport : Bool
  /-- ERR_ILLEGAL_OP (R28). -/
  errIllegalOp : Bool
  /-- WARN_NOT_READY (R29). -/
  warnNotReady : Bool
  /-- NATIVE_RESULT (R30). -/
  nativeResult : Half
  /-- The operand latches OPC, X, Y, CR, CG, CB (R21). -/
  latches : Latches
  /-- NATIVE_LATCH (R21). -/
  nativeLatch : Half
  /-- DC_CFG (R31). -/
  dcCfg : Bool
  /-- DC_LVL (R31). -/
  dcLvl : Bool
  /-- RST_CFG (R31). -/
  rstCfg : Bool
  /-- RST_LVL (R31). -/
  rstLvl : Bool
  /-- BL_CFG (R31). -/
  blCfg : Bool
  /-- BL_LVL (R31). -/
  blLvl : Bool
  /-- The level of the input `rst_n`, active low (R240). -/
  rstN : Bool
  /-- op_done (R190): 1 in the state in which an operation has just completed. -/
  opDone : Bool
  /-- op_status[3:0] (R190, R210), valid with op_done. -/
  opStatus : BitVec 4
  /-- reg_rdata[15:0] (R85): the value of the last register read. -/
  regRdata : Half
  /-- cv_native[15:0] (R184): the converter's last output. -/
  cvNative : Half
  /-- TRACE (R10), oldest event first. -/
  trace : List Event
  /-- P and GHOST_FAULTS (R33). -/
  ghost : Ghost
  /-- What the outside presents, in the order it takes effect (log 6). -/
  inputs : List Input
  /-- The transport oracle (R6; log 3). -/
  transport : Transport
  /-- After how many further acts of a running operation the outside gets its turn, one number a turn (log 7). -/
  pauses : List Nat
  /-- How many free values have been drawn: the model's own counter (log 5). -/
  freeDraws : Nat
  deriving DecidableEq, Repr

/-- Why the machine stops. -/
inductive Fault where
  /-- Raised by the step: the block is held in a transport call that never answers, and nothing the outside presents can
  be taken (R220: "it is stuck, not a fault, and it is not final"). SAFE: the model stops where the hardware goes on
  waiting. -/
  | transportHold
  deriving DecidableEq, Repr

/-- Why the model gives no meaning. -/
inductive Refusal where
  /-- Raised by a dispatch arm whose instruction has no meaning yet. SAFE. -/
  | notModelled (mnemonic : String)
  /-- Raised by the step, by SETUP and by RUN_INIT when the ROM is ill-formed or fails a content check, and by a bench
  record that does not decode: "The model refuses it before any step runs" (R102, R132). SAFE. -/
  | illFormedRom
  deriving DecidableEq, Repr

/-- The operand latches at power-on. The spec leaves them unspecified (R21, R46): DESIGN CHOICE 0, unsafe, log 4. -/
def latchesAtReset : Latches := ⟨0, 0, 0, 0, 0, 0⟩

/-- Power-on reset, `rst_n` back at 1 (R46, R240, R242). The values R46 gives; the latches by log 4, the ports by log 15, the instance by
log 1, the outside by log 3, 6 and 7. -/
def State.reset : State where
  cfg := Config.reference
  seq := .idle
  work := []
  held := none
  romIdx := 0
  runCnt := 0
  frameOpen := false
  ready := false
  errTransport := false
  errIllegalOp := false
  warnNotReady := false
  nativeResult := 0x0000
  latches := latchesAtReset
  nativeLatch := 0
  dcCfg := false
  dcLvl := false
  rstCfg := false
  rstLvl := false
  blCfg := false
  blLvl := false
  rstN := true
  opDone := false
  opStatus := 0
  regRdata := 0
  cvNative := 0
  trace := []
  ghost := ⟨Panel.initial, []⟩
  inputs := []
  transport := ⟨[], .ok⟩
  pauses := []
  freeDraws := 0

end Sys2Proof.Machine
end

