-- ==== Sys2Proof/Machine/Operands.lean ====
section
/-! DEFINITION. Operand assembly: the PIXEL coordinates as signed numbers and their bounds (R82, R160), the operand
latches of an accepted operation (R21, R107), the colour converter's function (R180 to R183), the MADCTL byte (R133). -/

namespace Sys2Proof.Machine

/-- `InPanel(x, y)`: both coordinates, as signed integers, in 0..239 (R82, R160). -/
def inPanel (x y : Half) : Bool :=
  decide (0 ≤ x.toInt ∧ x.toInt < panelSide ∧ 0 ≤ y.toInt ∧ y.toInt < panelSide)

/-- What the latches hold after an operation without operands is accepted: its descriptor's fields, all 0 but OPC. -/
def plainLatches (opc : BitVec 4) : Latches := ⟨opc, 0, 0, 0, 0, 0⟩

/-- What the latches hold after FILL or CONVERT is accepted (R83, R107). -/
def colorLatches (opc : BitVec 4) (r g b : Byte) : Latches := ⟨opc, 0, 0, r, g, b⟩

/-- What the latches hold after PIXEL is accepted (R82, R107). -/
def pixelLatches (x y : Half) (r g b : Byte) : Latches := ⟨5, x, y, r, g, b⟩

/-- `((hi & 0xF8) << 8) | ((mid & 0xFC) << 3) | (lo >> 3)` as a u16 (R180): truncation, no rounding (R183). -/
def pack565 (hi mid lo : Byte) : Half :=
  ((hi &&& 0xF8).setWidth 16 <<< 8) ||| ((mid &&& 0xFC).setWidth 16 <<< 3) ||| (lo >>> 3).setWidth 16

/-- TO_NATIVE (R180 with `SWAP_RB` = 0, R182 with `SWAP_RB` = 1). -/
def toNative (swapRb : Bool) (r g b : Byte) : Half :=
  if swapRb then pack565 b g r else pack565 r g b

/-- `MADCTL_DATA`, derived from the same strap (R133). Bit 3 is the BGR bit by the spec's general knowledge (G2; log 2). -/
def madctlData (swapRb : Bool) : Byte := if swapRb then 0x00 else 0x08

end Sys2Proof.Machine
end

