-- ==== Sys2Proof/Machine/Flags.lean ====
section
/-! DEFINITION. The flags and the host register map (spec/10_state.md R26 to R45) and the status codes (R210): what each
register reads, and the one place where the sticky bits are cleared. -/

namespace Sys2Proof.Machine

/-! ### Status codes (R210) -/

/-- OK. -/
def statusOk : BitVec 4 := 0x0
/-- WARN_NOT_READY. -/
def statusWarnNotReady : BitVec 4 := 0x1
/-- ERR_TRANSPORT. -/
def statusErrTransport : BitVec 4 := 0x2
/-- ERR_ILLEGAL_OP. -/
def statusErrIllegalOp : BitVec 4 := 0x3

/-! ### Ready, busy -/

/-- `op_ready` = 1 exactly when SEQ = IDLE (R190). -/
def State.opReady (s : State) : Bool := s.seq == .idle

/-- BUSY (R22, R38). -/
def State.busy (s : State) : Bool := s.seq == .busy

/-- The block has work to do: an operation accepted and not completed (R22), or acts still to do. A micro-operation run on
its own leaves SEQ IDLE (log 14), so `op_ready` reads 1 while it is paused or held, and a request waits all the same:
DESIGN CHOICE, log 14. -/
def State.inProgress (s : State) : Bool := s.busy || !s.work.isEmpty || s.held.isSome

/-- The block accepts what is presented: no operation in progress (R190), and `rst_n` = 1 ("While `rst_n` = 0, the block
accepts no operation", R240). -/
def State.accepts (s : State) : Bool := s.rstN && !s.inProgress

/-- The three sticky bits <- 0, at SETUP's entry (R191, R27 to R29). No turn of the outside falls between the three:
DESIGN CHOICE, log 7. -/
def State.clearSticky (s : State) : State :=
  { s with errTransport := false, errIllegalOp := false, warnNotReady := false }

/-! ### The register map (R34) -/

/-- STATUS (R38): READY, ERR_TRANSPORT, ERR_ILLEGAL_OP, WARN_NOT_READY, BUSY at bits 0 to 4, the rest 0. -/
def State.statusReg (s : State) : Half :=
  (0#11) ++ BitVec.ofBool s.busy ++ BitVec.ofBool s.warnNotReady ++ BitVec.ofBool s.errIllegalOp
    ++ BitVec.ofBool s.errTransport ++ BitVec.ofBool s.ready

/-- CONFIG (R39): HAS_RST, HAS_BL, SWAP_RB at bits 0 to 2, the rest 0. -/
def configReg (cfg : Config) : Half :=
  (0#13) ++ BitVec.ofBool cfg.swapRb ++ BitVec.ofBool cfg.hasBl ++ BitVec.ofBool cfg.hasRst

/-- PINS (R40): CFG and LVL of DC, RST, BL at bits 0 to 5, the rest 0; while CFG is 0, LVL reads 0 (R31; log 10). -/
def State.pinsReg (s : State) : Half :=
  (0#10) ++ BitVec.ofBool (s.blCfg && s.blLvl) ++ BitVec.ofBool s.blCfg
    ++ BitVec.ofBool (s.rstCfg && s.rstLvl) ++ BitVec.ofBool s.rstCfg
    ++ BitVec.ofBool (s.dcCfg && s.dcLvl) ++ BitVec.ofBool s.dcCfg

/-- MADCTL (R42). -/
def madctlReg (cfg : Config) : Half := (0#8) ++ madctlData cfg.swapRb

/-- The value of the register at `a` (R34 to R43). -/
def State.regValue (s : State) (a : RegAddr) : Half :=
  match a.toNat with
  | 0 => BitVec.ofNat 16 panelSide
  | 1 => BitVec.ofNat 16 panelSide
  | 2 => displayTypeColor
  | 3 => s.statusReg
  | 4 => configReg s.cfg
  | 5 => s.pinsReg
  | 6 => s.nativeResult
  | 7 => madctlReg s.cfg
  | _ => 0x0000

/-- The registers 0x0 to 0x7, read now (R193). -/
def State.snapshot (s : State) : List Half :=
  [s.regValue 0, s.regValue 1, s.regValue 2, s.regValue 3, s.regValue 4, s.regValue 5, s.regValue 6, s.regValue 7]

end Sys2Proof.Machine
end

