-- ==== Sys2Proof/Machine/Memory.lean ====
section
/-! DEFINITION. Tables in canonical form (keys strictly rising, each listed once, an unlisted key holds nothing), and the
panel's display memory over them: one byte, and one 16-bit cell (spec/20_memory.md R50(c), R55, R62). -/

namespace Sys2Proof.Machine

/-- The value listed at `k`. -/
def Table.get {α : Type} (k : Nat) : List (Nat × α) → Option α
  | [] => none
  | (j, v) :: t => if k = j then some v else Table.get k t

/-- `v` listed at `k`, in its place in the rising order. -/
def Table.put {α : Type} (k : Nat) (v : α) : List (Nat × α) → List (Nat × α)
  | [] => [(k, v)]
  | (j, u) :: t =>
    if k < j then (k, v) :: (j, u) :: t
    else if k = j then (k, v) :: t
    else (j, u) :: Table.put k v t

/-- Nothing listed at `k`. -/
def Table.drop {α : Type} (k : Nat) (t : List (Nat × α)) : List (Nat × α) :=
  t.filter fun c => c.1 != k

/-- The canonical form: keys strictly rising. -/
abbrev Table.wf {α : Type} (t : List (Nat × α)) : Prop := t.Pairwise fun a b => a.1 < b.1

/-- How many bytes the display memory has: 240 x 240 cells of two bytes (R50(c); log 16). -/
def memorySize : Nat := 2 * (panelSide * panelSide)

/-- The canonical form of the display memory: addresses strictly rising, inside the memory. An unlisted byte is unknown,
and no entry says "unknown", so equal memories are equal lists. -/
abbrev Memory.wf (m : Memory) : Prop := Table.wf m ∧ ∀ c ∈ m, c.1 < memorySize

/-- One byte of display memory: `none` is a byte of which nothing is known (R56). -/
def Memory.readByte (a : Nat) (m : Memory) : Option Byte := Table.get a m

/-- One byte of display memory becomes known or unknown. -/
def Memory.writeByte (a : Nat) (v : Option Byte) (m : Memory) : Memory :=
  match v with
  | some b => Table.put a b m
  | none => Table.drop a m

/-- Where cell (x, y) lies: row-major, the high byte at the even address (log 16). -/
def cellAddr (x y : Nat) : Nat := 2 * (panelSide * y + x)

/-- `P.gram[x][y]` (R55, R64): known when both its bytes are. -/
def Memory.readCell (x y : Nat) (m : Memory) : Option Half :=
  match m.readByte (cellAddr x y), m.readByte (cellAddr x y + 1) with
  | some h, some l => some (joinBytes h l)
  | _, _ => none

/-- `P.gram[x][y] <- v` (R62). -/
def Memory.writeCell (x y : Nat) (v : Option Half) (m : Memory) : Memory :=
  (m.writeByte (cellAddr x y) (v.map hiByte)).writeByte (cellAddr x y + 1) (v.map loByte)

end Sys2Proof.Machine
end

