-- ==== Sys2Proof/Machine/Panel.lean ====
section
/-! DEFINITION. The panel observation (spec/20_memory.md R55 to R66): what each event does to `P` and to GHOST_FAULTS.
Commands are recognised by byte value under the instance's codes, in the order of the pseudocode (log 20). -/

namespace Sys2Proof.Machine

/-- Every name of R219, in its order. -/
def ghostFaultNames : List GhostFault :=
  [.transport, .byteDuringReset, .settleViolation, .oddPixelByte, .dataWithoutCommand, .extraParam, .staleWindow,
    .windowUnset, .windowInvalid, .windowOverrun, .abortedByReset]

/-- `ghost_fault(f)`: f joins the set (R219). -/
def Ghost.addFault (f : GhostFault) (g : Ghost) : Ghost :=
  { g with faults := ghostFaultNames.filter fun n => n = f ∨ n ∈ g.faults }

/-- `panel_reset()`: every field but `status` and `rst_held` to its P0 value (R56). -/
def Panel.reset (p : Panel) : Panel :=
  { Panel.initial with status := p.status, rstHeld := p.rstHeld }

/-- SETTLE(b): the source's lower bound on the delay after command b (R58). -/
def settleBound (codes : CmdCodes) (b : Byte) : Nat :=
  if b = codes.swreset then 120
  else if b = codes.slpout then 120
  else if b = codes.invon then 10
  else if b = codes.noron then 10
  else if b = codes.dispon then 120
  else 0

/-- The bounds of R60: x1 <= x2 <= 239 and y1 <= y2 <= 239. -/
def windowValid (col row : Half × Half) : Bool :=
  decide (col.1.toNat ≤ col.2.toNat ∧ col.2.toNat < panelSide ∧ row.1.toNat ≤ row.2.toNat ∧ row.2.toNat < panelSide)

/-- The STALE_WINDOW check of R60, and the end of freshness. -/
def Ghost.useWindow (g : Ghost) : Ghost :=
  let g' := if g.panel.colFresh && g.panel.rowFresh then g else g.addFault .staleWindow
  { g' with panel := { g'.panel with colFresh := false, rowFresh := false } }

/-- The cursor of a new pixel stream (R60), after `useWindow`. -/
def Ghost.openStream (g : Ghost) : Ghost :=
  match g.panel.colWin, g.panel.rowWin with
  | some col, some row =>
    if windowValid col row then { g with panel := { g.panel with cur := .cell col.1.toNat row.1.toNat } }
    else { g.addFault .windowInvalid with panel := { g.panel with cur := .unset } }
  | _, _ => { g.addFault .windowUnset with panel := { g.panel with cur := .unset } }

/-- `panel_ramwr_start()` (R60). -/
def Ghost.ramwrStart (g : Ghost) : Ghost := g.useWindow.openStream

/-- A pixel's high byte left over when a command arrives (R58). -/
def Ghost.dropOddByte (g : Ghost) : Ghost :=
  match g.panel.pend with
  | none => g
  | some _ => { g.addFault .oddPixelByte with panel := { g.panel with pend := none } }

/-- `P.cmd <- some b; P.args <- []`, after the reset that SWRESET makes (R58). -/
def Panel.takeCommand (codes : CmdCodes) (b : Byte) (p : Panel) : Panel :=
  { (if b = codes.swreset then p.reset else p) with cmd := some b, args := [] }

/-- `P.settle <- ms`. -/
def Ghost.setSettle (ms : Nat) (g : Ghost) : Ghost := { g with panel := { g.panel with settle := ms } }

/-- `panel_command(b)` (R58). -/
def Ghost.command (codes : CmdCodes) (b : Byte) (g : Ghost) : Ghost :=
  let g₁ := g.dropOddByte
  let g₂ : Ghost := { g₁ with panel := g₁.panel.takeCommand codes b }
  (if b = codes.ramwr then g₂.ramwrStart else g₂).setSettle (settleBound codes b)

/-- The row-major scan of the window (R63). A cursor without a window is in no reachable state (log 18). -/
def Panel.advance (p : Panel) (x y : Nat) : Cursor :=
  match p.colWin, p.rowWin with
  | some col, some row =>
    if x < col.2.toNat then .cell (x + 1) y
    else if y < row.2.toNat then .cell col.1.toNat (y + 1)
    else .done
  | _, _ => .done

/-- `GramWrite(x, y, v)`: known only under the pixel format 0x55 (R62). -/
def Panel.gramWrite (x y : Nat) (v : Half) (p : Panel) : Panel :=
  { p with gram := p.gram.writeCell x y (if p.colmod = some colmodData then some v else none) }

/-- A whole pixel value at the cursor (R61). -/
def Ghost.pixel (v : Half) (g : Ghost) : Ghost :=
  match g.panel.cur with
  | .unset => g
  | .done => g.addFault .windowOverrun
  | .cell x y => { g with panel := { g.panel.gramWrite x y v with cur := g.panel.advance x y } }

/-- `panel_pixel_byte(b)` (R61). -/
def Ghost.pixelByte (b : Byte) (g : Ghost) : Ghost :=
  match g.panel.pend with
  | none => { g with panel := { g.panel with pend := some b } }
  | some h => Ghost.pixel (joinBytes h b) { g with panel := { g.panel with pend := none } }

/-- CASET's effect when its n-th data byte has arrived (R59). -/
def Ghost.casetParam (g : Ghost) : Ghost :=
  match g.panel.args with
  | [h₁, l₁, h₂, l₂] =>
    { g with panel := { g.panel with colWin := some (joinBytes h₁ l₁, joinBytes h₂ l₂), colFresh := true } }
  | args => if 4 < args.length then g.addFault .extraParam else g

/-- RASET's effect when its n-th data byte has arrived (R59). -/
def Ghost.rasetParam (g : Ghost) : Ghost :=
  match g.panel.args with
  | [h₁, l₁, h₂, l₂] =>
    { g with panel := { g.panel with rowWin := some (joinBytes h₁ l₁, joinBytes h₂ l₂), rowFresh := true } }
  | args => if 4 < args.length then g.addFault .extraParam else g

/-- COLMOD's effect when its n-th data byte has arrived (R59). -/
def Ghost.colmodParam (g : Ghost) : Ghost :=
  match g.panel.args with
  | [b] => { g with panel := { g.panel with colmod := some b } }
  | args => if 1 < args.length then g.addFault .extraParam else g

/-- `P.args <- P.args ++ [b]; P.regs[c] <- some P.args` (R59). -/
def Panel.recordParam (c b : Byte) (p : Panel) : Panel :=
  { p with args := p.args ++ [b], regs := Table.put c.toNat (p.args ++ [b]) p.regs }

/-- A data byte of a command other than RAMWR (R59). -/
def Ghost.paramByte (codes : CmdCodes) (c b : Byte) (g : Ghost) : Ghost :=
  let g₀ : Ghost := { g with panel := g.panel.recordParam c b }
  let g₁ := if c = codes.caset then g₀.casetParam else g₀
  let g₂ := if c = codes.raset then g₁.rasetParam else g₁
  if c = codes.colmod then g₂.colmodParam else g₂

/-- `panel_data(b)` (R59). -/
def Ghost.data (codes : CmdCodes) (b : Byte) (g : Ghost) : Ghost :=
  match g.panel.cmd with
  | none => g.addFault .dataWithoutCommand
  | some c => if c = codes.ramwr then g.pixelByte b else g.paramByte codes c b

/-- The settle check of `panel_byte` (R57). -/
def Ghost.checkSettle (g : Ghost) : Ghost :=
  if 0 < g.panel.settle then g.addFault .settleViolation else g

/-- `panel_byte(dc, b)` (R57). -/
def Ghost.byte (codes : CmdCodes) (dc : Bool) (b : Byte) (g : Ghost) : Ghost :=
  match g.panel.status with
  | .corrupt => g
  | .live =>
    if g.panel.rstHeld then g.addFault .byteDuringReset
    else if dc then g.checkSettle.data codes b else g.checkSettle.command codes b

/-- `P.status <- CORRUPT`. -/
def Ghost.corrupt (g : Ghost) : Ghost := { g with panel := { g.panel with status := .corrupt } }

/-- `panel_observe(e)` with DC at level `dc` (R57). -/
def Ghost.observe (codes : CmdCodes) (dc : Bool) (e : Event) (g : Ghost) : Ghost :=
  match e with
  | .pin .rst false => { g with panel := { g.panel.reset with rstHeld := true, status := .live } }
  | .pin .rst true => { g with panel := { g.panel with rstHeld := false } }
  | .wait _ ms => { g with panel := { g.panel with settle := g.panel.settle - ms.toNat } }
  | .byte b => g.byte codes dc b
  | .tFail _ => g.corrupt.addFault .transport
  | .tCfg | .pinCfg _ | .pin .dc _ | .pin .bl _ | .frameBegin | .frameEnd | .warn _ | .report _ => g

/-- The level of DC after an event. -/
def dcAfter (dc : Bool) : Event → Bool
  | .pin .dc l => l
  | _ => dc

/-- A stream of events presented to the panel in order, from DC at level `dc` (R57, R69(c)). -/
def Ghost.observeAll (codes : CmdCodes) : Bool → List Event → Ghost → Ghost
  | _, [], g => g
  | dc, e :: es, g => Ghost.observeAll codes (dcAfter dc e) es (g.observe codes dc e)

/-- `WIRE`: the pairs (dc, b) of the bytes of a stream that starts with DC at level `dc` (R11). -/
def wireFrom : Bool → List Event → List (Bool × Byte)
  | _, [] => []
  | dc, .byte b :: es => (dc, b) :: wireFrom dc es
  | dc, e :: es => wireFrom (dcAfter dc e) es

/-- `WIRE(TRACE)` of a whole trace (R11); before the first `Pin(DC, l)` the pin is undriven and reads 0 (log 10). -/
def wire (trace : List Event) : List (Bool × Byte) := wireFrom false trace

end Sys2Proof.Machine
end

