-- ==== Sys2Proof/Machine/Rom.lean ====
section
/-! DEFINITION. The initialisation ROM as configuration (spec/41_init_rom.md R130 to R135): the image's entries, the
content checks, the reference composition. -/

namespace Sys2Proof.Machine

/-- Some entry is the lone command `cmd` with a delay of at least `ms` (R132 (a), (b), (e), (f)). -/
def romHasSettled (cmd : Byte) (ms : Nat) (rom : List RomEntry) : Bool :=
  rom.any fun e => e.cmd == cmd && e.data.isEmpty && (e.delay.map fun d => decide (ms ≤ d.toNat)).getD false

/-- Some entry writes `[v]` to `cmd`, and every entry of `cmd` does (R132 (c), (d)). -/
def romWritesOnly (cmd v : Byte) (rom : List RomEntry) : Bool :=
  (rom.any fun e => e.cmd == cmd && e.data == [v]) && rom.all fun e => e.cmd != cmd || e.data == [v]

/-- The content checks R132 (a) to (g). -/
def romContentOk (codes : CmdCodes) (swapRb : Bool) (rom : List RomEntry) : Bool :=
  romHasSettled codes.swreset 120 rom && romHasSettled codes.slpout 120 rom
    && romWritesOnly codes.colmod colmodData rom && romWritesOnly codes.madctl (madctlData swapRb) rom
    && romHasSettled codes.invon 10 rom && romHasSettled codes.noron 10 rom
    && romHasSettled codes.dispon 120 rom && rom.all RomEntry.wellFormed

/-- `INIT_ROM` of an instance: the image's entries when the image decodes (R100, R102) and passes the content checks
(R132); none when the model must refuse it. -/
def initRom (cfg : Config) : Option (List RomEntry) :=
  match decodeRom cfg.romEntries cfg.romImage with
  | .rejected _ => none
  | .ok rom => if romContentOk cfg.codes cfg.swapRb rom then some rom else none

/-- The instance's ROM is admissible (R132). -/
def romAdmissible (cfg : Config) : Bool := (initRom cfg).isSome

/-- The delays of the reference composition (R6). -/
structure SettleTimes where
  swreset : Half
  slpout : Half
  invon : Half
  noron : Half
  dispon : Half
  deriving DecidableEq, Repr

/-- The reference values (R6). -/
def SettleTimes.reference : SettleTimes := ⟨120, 120, 10, 10, 120⟩

/-- The reference composition of `INIT_ROM` around a tuning table (R131). -/
def referenceRom (codes : CmdCodes) (swapRb : Bool) (t : SettleTimes) (tuning : List RomEntry) : List RomEntry :=
  [⟨codes.swreset, [], some t.swreset⟩, ⟨codes.slpout, [], some t.slpout⟩, ⟨codes.colmod, [colmodData], none⟩,
    ⟨codes.madctl, [madctlData swapRb], none⟩]
  ++ tuning
  ++ [⟨codes.invon, [], some t.invon⟩, ⟨codes.noron, [], some t.noron⟩, ⟨codes.dispon, [], some t.dispon⟩]

end Sys2Proof.Machine
end

