-- ==== Sys2Proof/Machine/Ops.lean ====
section
/-! DEFINITION. The named operations over the state: emitting an event, the primitives of R110 to R112, the two aborts
that stand in place of trap entry (R213, R214, R217), one primitive act, running the acts of an operation, accepting an
operation (R190), the block reset (R240, R242). -/

namespace Sys2Proof.Machine

/-- `emit(e)`: the event joins TRACE and is presented to the panel (R9, R57). -/
def State.emit (e : Event) (s : State) : State :=
  { s with trace := s.trace ++ [e], ghost := s.ghost.observe s.cfg.codes s.dcLvl e }

/-! ### Pins and delays -/

/-- `S.p_CFG <- 1`. -/
def State.setPinCfg (p : Pin) (s : State) : State :=
  match p with
  | .dc => { s with dcCfg := true }
  | .rst => { s with rstCfg := true }
  | .bl => { s with blCfg := true }

/-- `S.p_LVL <- l`. -/
def State.setPinLvl (p : Pin) (l : Bool) (s : State) : State :=
  match p with
  | .dc => { s with dcLvl := l }
  | .rst => { s with rstLvl := l }
  | .bl => { s with blLvl := l }

/-- `PinConfigure(p)` (R111). -/
def State.pinConfigure (p : Pin) (s : State) : State := (s.emit (.pinCfg p)).setPinCfg p

/-- `PinWrite(p, l)` (R111): the event is emitted even when the level does not change. -/
def State.pinWrite (p : Pin) (l : Bool) (s : State) : State := (s.emit (.pin p l)).setPinLvl p l

/-! ### Transport calls -/

/-- The oracle's answer to the next call (R6). -/
def Transport.answer (t : Transport) : Answer := t.script.headD t.rest

/-- The oracle after one call. -/
def Transport.next (t : Transport) : Transport := { t with script := t.script.tail }

/-- The oracle after `n` calls. -/
def Transport.after (n : Nat) (t : Transport) : Transport := { t with script := t.script.drop n }

/-- The event of a call that answered OK (R110). -/
def TCall.event : TCall → Event
  | .cfg => .tCfg
  | .frameBegin => .frameBegin
  | .write b => .byte b
  | .frameEnd => .frameEnd

/-- FRAME_OPEN after a call that answered OK (R110, R25). -/
def TCall.frameAfter (c : TCall) (wasOpen : Bool) : Bool :=
  match c with
  | .cfg => false
  | .frameBegin => true
  | .write _ => wasOpen
  | .frameEnd => false

/-- What one act comes to. -/
inductive Progress where
  /-- The act is done. -/
  | done (s : State)
  /-- Its transport call answered FAIL; TFail has been emitted (R110). -/
  | failed (s : State)
  /-- Its transport call is never answered (R220). -/
  | held (c : TCall) (s : State)
  deriving DecidableEq, Repr

/-- A call that answered OK. -/
def State.callOk (c : TCall) (s : State) : State :=
  { s.emit c.event with frameOpen := c.frameAfter s.frameOpen }

/-- `Tcall(c)` (R110): the answer is the oracle's next draw. -/
def State.tcall (c : TCall) (s : State) : Progress :=
  let s' : State := { s with transport := s.transport.next }
  match s.transport.answer with
  | .ok => .done (s'.callOk c)
  | .fail => .failed (s'.emit (.tFail c))
  | .never => .held c s'

/-! ### The aborts, in place of trap entry and return (R217, R218) -/

/-- Completion of an operation with a status: SEQ <- IDLE, op_done pulses with op_status (R190), at once (log 7). -/
def State.finish (status : BitVec 4) (s : State) : State :=
  { s with seq := .idle, opDone := true, opStatus := status }

/-- `abort_transport(c)` after `TFail(c)` (R213): nothing more of the operation runs. ROM_IDX, FRAME_OPEN, the pins,
NATIVE_RESULT and the latches keep their values. There is no handler and no return; recovery is a new SETUP (R218). The
assignments are one with the failing call and with one another: no turn of the outside falls after TFail and before
SEQ <- IDLE. DESIGN CHOICE, log 7. -/
def State.abortTransport (s : State) : State :=
  { s with ready := false, errTransport := true, runCnt := 0, work := [] }.finish statusErrTransport

/-! ### Acts -/

/-- What one act does. -/
def State.act (a : Act) (s : State) : Progress :=
  match a with
  | .pinConfigure p => .done (s.pinConfigure p)
  | .pinWrite p l => .done (s.pinWrite p l)
  | .tcall c => s.tcall c
  | .wait k ms => .done (s.emit (.wait k ms))
  | .setReady v => .done { s with ready := v }
  | .clearSticky => .done s.clearSticky
  | .setIllegalOp => .done { s with errIllegalOp := true }
  | .emitWarn => .done (s.emit (.warn .notReady))
  | .setWarn => .done { s with warnNotReady := true }
  | .emitReport => .done (s.emit (.report s.snapshot))
  | .romStart => .done { s with romIdx := 0 }
  | .romNext => .done { s with romIdx := min (s.romIdx + 1) s.cfg.romEntries }
  | .runLoad n => .done { s with runCnt := n }
  | .runNext => .done { s with runCnt := s.runCnt - 1 }
  | .convert r g b => .done { s with cvNative := toNative s.cfg.swapRb r g b }
  | .latchNative => .done { s with nativeLatch := s.cvNative }
  | .storeNative => .done { s with nativeResult := s.cvNative }
  | .complete status => .done (s.finish status)

/-- One act fewer until the outside's next turn (log 7). -/
def State.countAct (s : State) : State :=
  match s.pauses with
  | (n + 1) :: ps => { s with pauses := n :: ps }
  | _ => s

/-- Run acts in order, before whatever work is already pending, until they are done, the outside's turn comes, a call
fails or a call is never answered. What is left stands in `work`. The outside's turns fall between acts, and not between a
failing call and its abort: DESIGN CHOICE, log 7. -/
def State.perform : List Act → State → State
  | [], s => s
  | a :: as, s =>
    match s.pauses with
    | 0 :: ps => { s with pauses := ps, work := (a :: as) ++ s.work }
    | _ =>
      match s.countAct.act a with
      | .done s' => State.perform as s'
      | .failed s' => s'.abortTransport
      | .held c s' => { s' with held := some c, work := (a :: as) ++ s'.work }

/-- Go on with the operation in progress. -/
def State.resume (s : State) : State := State.perform s.work { s with work := [] }

/-! ### Operations and micro-operations -/

/-- Acceptance of an operation (R190, R107): SEQ <- BUSY, the operand latches take the decoded operation's fields. -/
def State.accept (l : Latches) (s : State) : State := { s with seq := .busy, latches := l, opDone := false }

/-- A host operation: accepted and run when the block accepts one; otherwise the request waits and nothing changes (R190,
R240; log 9). `acts` sees the state at acceptance. -/
def State.operate (l : Latches) (acts : List Act) (s : State) : Host.Outcome State Fault Refusal :=
  .next (if s.accepts then State.perform acts (s.accept l) else s)

/-- ILLEGAL (R214): accepted like an operation, but no latch is written and only ERR_ILLEGAL_OP changes (R101). -/
def State.rejectDescriptor (s : State) : Host.Outcome State Fault Refusal :=
  .next (if s.accepts then
    State.perform [.setIllegalOp, .complete statusErrIllegalOp] { s with seq := .busy, opDone := false } else s)

/-- A micro-operation run on its own: its acts, in the state as it is (R109; log 14). -/
def State.micro (acts : List Act) (s : State) : Host.Outcome State Fault Refusal := .next (State.perform acts s)

/-! ### Reset -/

/-- Every field of the block at its reset value (R240, R46). The panel, the ghost faults and the trace are kept and no
event is emitted (R242). The operand latches are unspecified: free values (log 5). -/
def State.resetBlock (s : State) : State :=
  { s with
    seq := .idle
    work := []
    held := none
    romIdx := 0
    runCnt := 0
    frameOpen := false
    ready := false
    errTransport := false
    errIllegalOp := false
    warnNotReady := false
    nativeResult := 0x0000
    latches := Config.freeLatches s.freeDraws
    nativeLatch := Config.freeNativeLatch s.freeDraws
    dcCfg := false
    dcLvl := false
    rstCfg := false
    rstLvl := false
    blCfg := false
    blLvl := false
    opDone := false
    freeDraws := s.freeDraws + 1 }

/-- `rst_n` falls: the warm reset of R242. An operation in progress stops where it is, without `op_done`, which leaves the
panel CORRUPT and records ABORTED_BY_RESET. A micro-operation run on its own that is cut so, with SEQ IDLE, is treated in
the same way: DESIGN CHOICE, log 14. -/
def State.assertReset (s : State) : State :=
  { s.resetBlock with
    rstN := false
    ghost := if s.inProgress then s.ghost.corrupt.addFault .abortedByReset else s.ghost }

/-- `rst_n` returns to 1: "every field of the block state holds the reset value" (R240). -/
def State.releaseReset (s : State) : State := { s.resetBlock with rstN := true }

/-- `rst_n` is driven to level `l`: nothing happens unless the level changes (R240, R242). -/
def State.driveReset (l : Bool) (s : State) : State :=
  match s.rstN, l with
  | true, false => s.assertReset
  | false, true => s.releaseReset
  | true, true => s
  | false, false => s

end Sys2Proof.Machine
end

