-- ==== Sys2Proof/Machine/Color.lean ====
section
/-! DEFINITION. The converter's operations (spec/43_color.md R184, R185). -/

namespace Sys2Proof.Machine

/-- CONVERT (R185): no event, no flag, READY not read. -/
def execConvert (r g b : Byte) (s : State) : Host.Outcome State Fault Refusal :=
  s.operate (colorLatches 6 r g b) [.convert r g b, .storeNative, .complete statusOk]

/-- TO_NATIVE (R184): the combinational converter's output; no event, no flag. -/
def execToNative (r g b : Byte) (s : State) : Host.Outcome State Fault Refusal := s.micro [.convert r g b]

end Sys2Proof.Machine
end

