-- ==== Sys2Proof/Machine/Framing.lean ====
section
/-! DEFINITION. The framing micro-operations (spec/40_framing.md R113 to R118): their acts, and their meanings. -/

namespace Sys2Proof.Machine

/-- SEND_COMMAND(b) (R113). -/
def sendCommandActs (b : Byte) : List Act :=
  [.pinWrite .dc false, .tcall .frameBegin, .tcall (.write b), .tcall .frameEnd]

/-- SEND_DATA(b) (R114). -/
def sendDataActs (b : Byte) : List Act :=
  [.pinWrite .dc true, .tcall .frameBegin, .tcall (.write b), .tcall .frameEnd]

/-- SEND_DATA16(w) (R115): the high byte first. -/
def sendData16Acts (w : Half) : List Act :=
  [.pinWrite .dc true, .tcall .frameBegin, .tcall (.write (hiByte w)), .tcall (.write (loByte w)), .tcall .frameEnd]

/-- The loop of SEND_COLOR_RUN, `n` units of two bytes (R116). -/
def colorUnitActs (c : Half) : Nat → List Act
  | 0 => []
  | n + 1 => .tcall (.write (hiByte c)) :: .tcall (.write (loByte c)) :: .runNext :: colorUnitActs c n

/-- SEND_COLOR_RUN(c, n) (R116): the whole run in one frame. -/
def sendColorRunActs (c : Half) (n : BitVec 32) : List Act :=
  [.pinWrite .dc true, .tcall .frameBegin, .runLoad n] ++ (colorUnitActs c n.toNat ++ [.tcall .frameEnd])

/-- SEND_COMMAND. -/
def execSendCommand (b : Byte) (s : State) : Host.Outcome State Fault Refusal := s.micro (sendCommandActs b)

/-- SEND_DATA. -/
def execSendData (b : Byte) (s : State) : Host.Outcome State Fault Refusal := s.micro (sendDataActs b)

/-- SEND_DATA16. -/
def execSendData16 (w : Half) (s : State) : Host.Outcome State Fault Refusal := s.micro (sendData16Acts w)

/-- SEND_COLOR_RUN. -/
def execSendColorRun (c : Half) (n : BitVec 32) (s : State) : Host.Outcome State Fault Refusal :=
  s.micro (sendColorRunActs c n)

end Sys2Proof.Machine
end

