-- ==== Sys2Proof/Machine/Init.lean ====
section
/-! DEFINITION. The register-write state machine and the reset pulse (spec/41_init_rom.md R136 to R138, R141). -/

namespace Sys2Proof.Machine

/-- One SEND_DATA for each data byte (R136). -/
def sendDataListActs : List Byte → List Act
  | [] => []
  | b :: bs => sendDataActs b ++ sendDataListActs bs

/-- The delay of an entry, when it has one (R136). -/
def settleActs : Option Half → List Act
  | none => []
  | some d => [.wait .settle d]

/-- REG_WRITE(e) (R136). -/
def regWriteActs (e : RomEntry) : List Act :=
  sendCommandActs e.cmd ++ (sendDataListActs e.data ++ settleActs e.delay)

/-- One iteration of RUN_INIT's loop: REG_WRITE of the entry, then ROM_IDX <- ROM_IDX + 1 (R137, R141). -/
def romEntryActs (e : RomEntry) : List Act := regWriteActs e ++ [.romNext]

/-- The loop of RUN_INIT over the entries in order (R137). -/
def romActs : List RomEntry → List Act
  | [] => []
  | e :: es => romEntryActs e ++ romActs es

/-- RUN_INIT (R137). -/
def runInitActs (rom : List RomEntry) : List Act := .romStart :: romActs rom

/-- HW_RESET_PULSE (R138). -/
def hwResetPulseActs (cfg : Config) : List Act :=
  [.pinWrite .rst false, .wait .rstLow cfg.tRstLow, .pinWrite .rst true, .wait .rstRecover cfg.tRstRecover]

/-- REG_WRITE. -/
def execRegWrite (e : RomEntry) (s : State) : Host.Outcome State Fault Refusal := s.micro (regWriteActs e)

/-- RUN_INIT. An ill-formed ROM is refused before any step runs (R102, R132). -/
def execRunInit (s : State) : Host.Outcome State Fault Refusal :=
  match initRom s.cfg with
  | none => .refused .illFormedRom
  | some rom => s.micro (runInitActs rom)

/-- HW_RESET_PULSE. With `HAS_RST` = 0 "the pulse is not made" (R138). -/
def execHwResetPulse (s : State) : Host.Outcome State Fault Refusal :=
  s.micro (if s.cfg.hasRst then hwResetPulseActs s.cfg else [])

/-- A ROM record before the register-write state machine: one iteration of RUN_INIT's loop (log 12). -/
def execRomEntry (e : RomEntry) (s : State) : Host.Outcome State Fault Refusal := s.micro (romEntryActs e)

end Sys2Proof.Machine
end

