-- ==== Sys2Proof/Machine/Lifecycle.lean ====
section
/-! DEFINITION. The lifecycle operations, the illegal descriptors and the register port (spec/44_lifecycle.md R191 to
R194, 60_exceptions.md R214, 30_encoding.md R85). -/

namespace Sys2Proof.Machine

/-- SETUP's steps for the optional reset pin (R191). -/
def setupResetActs (cfg : Config) : List Act :=
  if cfg.hasRst then [.pinConfigure .rst, .pinWrite .rst true] ++ hwResetPulseActs cfg else []

/-- SETUP's steps for the optional backlight pin, after RUN_INIT (R191, 90_conflicts.md C3). -/
def setupBacklightActs (cfg : Config) : List Act :=
  if cfg.hasBl then [.pinConfigure .bl, .pinWrite .bl true] else []

/-- SETUP (R191), assignment by assignment. A turn of the outside may fall between acceptance and READY <- 0, and between
READY <- 1 and completion; a read there sees READY = 1 with BUSY = 1, where R254 speaks of READY = 0 with BUSY = 1 during
SETUP: DESIGN CHOICE, log 7. -/
def setupActs (cfg : Config) (rom : List RomEntry) : List Act :=
  [.setReady false, .clearSticky, .tcall .cfg, .pinConfigure .dc, .pinWrite .dc false] ++
    (setupResetActs cfg ++ (runInitActs rom ++ (setupBacklightActs cfg ++ [.setReady true, .complete statusOk])))

/-- UPDATE's acts (R192). -/
def updateActs (s : State) : List Act :=
  if !s.ready then [.emitWarn, .setWarn, .complete statusWarnNotReady] else [.complete statusOk]

/-- SETUP. An ill-formed ROM is refused before any step runs (R102, R132). -/
def execSetup (s : State) : Host.Outcome State Fault Refusal :=
  match initRom s.cfg with
  | none => .refused .illFormedRom
  | some rom => s.operate (plainLatches 1) (setupActs s.cfg rom)

/-- UPDATE. -/
def execUpdate (s : State) : Host.Outcome State Fault Refusal := s.operate (plainLatches 2) (updateActs s)

/-- DUMP_CONFIG (R193): the snapshot is taken while BUSY. -/
def execDumpConfig (s : State) : Host.Outcome State Fault Refusal :=
  s.operate (plainLatches 3) [.emitReport, .complete statusOk]

/-- ILLEGAL, OPC 0x0 (R214). -/
def execIllegalOpc0 (_rest : BitVec 60) (s : State) : Host.Outcome State Fault Refusal := s.rejectDescriptor

/-- ILLEGAL, OPC 0x7 (R214). -/
def execIllegalOpc7 (_rest : BitVec 60) (s : State) : Host.Outcome State Fault Refusal := s.rejectDescriptor

/-- ILLEGAL, OPC 0x8 to 0xF (R214). -/
def execIllegalOpc8F (_rest : BitVec 63) (s : State) : Host.Outcome State Fault Refusal := s.rejectDescriptor

/-- READ (R85, R44): the register's current value on `reg_rdata`, at any time, and nothing else. -/
def execRead (a : RegAddr) (s : State) : Host.Outcome State Fault Refusal :=
  .next { s with regRdata := s.regValue a }

end Sys2Proof.Machine
end

