-- ==== Sys2Proof/Machine/Pixel.lean ====
section
/-! DEFINITION. The address window and the pixel operations (spec/42_pixel_write.md R160 to R165). -/

namespace Sys2Proof.Machine

/-- SET_ADDRESS_WINDOW(x1, y1, x2, y2) (R161); its operands are not checked (R162). -/
def setAddressWindowActs (codes : CmdCodes) (x₁ y₁ x₂ y₂ : Half) : List Act :=
  sendCommandActs codes.caset ++ (sendData16Acts x₁ ++ (sendData16Acts x₂ ++
    (sendCommandActs codes.raset ++ (sendData16Acts y₁ ++ (sendData16Acts y₂ ++ sendCommandActs codes.ramwr)))))

/-- The writing part of PIXEL and FILL: the window, one conversion, one colour run of `n` units (R164, R165). -/
def paintActs (cfg : Config) (x₁ y₁ x₂ y₂ : Half) (n : BitVec 32) (r g b : Byte) : List Act :=
  setAddressWindowActs cfg.codes x₁ y₁ x₂ y₂ ++
    ([.convert r g b, .latchNative] ++ (sendColorRunActs (toNative cfg.swapRb r g b) n ++ [.complete statusOk]))

/-- PIXEL's acts: ready, then bounds, then the write (R164, R215). -/
def pixelActs (s : State) (x y : Half) (r g b : Byte) : List Act :=
  if !s.ready then [.complete statusOk]
  else if !inPanel x y then [.complete statusOk]
  else paintActs s.cfg x y x y 1 r g b

/-- FILL's acts (R165): the window (0,0)-(239,239) and one run of FILL_COUNT units. -/
def fillActs (s : State) (r g b : Byte) : List Act :=
  if !s.ready then [.complete statusOk] else paintActs s.cfg 0 0 239 239 fillCount r g b

/-- SET_ADDRESS_WINDOW. -/
def execSetAddressWindow (x₁ y₁ x₂ y₂ : Half) (s : State) : Host.Outcome State Fault Refusal :=
  s.micro (setAddressWindowActs s.cfg.codes x₁ y₁ x₂ y₂)

/-- PIXEL. -/
def execPixel (x y : Half) (r g b : Byte) (s : State) : Host.Outcome State Fault Refusal :=
  s.operate (pixelLatches x y r g b) (pixelActs s x y r g b)

/-- FILL. -/
def execFill (r g b : Byte) (s : State) : Host.Outcome State Fault Refusal :=
  s.operate (colorLatches 4 r g b) (fillActs s r g b)

end Sys2Proof.Machine
end

