-- ==== Sys2Proof/Machine/Wire.lean ====
section
/-! DEFINITION. The wire rows (spec/30_encoding.md R86, R88 to R98): each unit as the block puts it on the wire, by the
framing micro-operation of its DC level; what it does to the panel is the observation's (R57 to R63). Log 11. -/

namespace Sys2Proof.Machine

/-- SWRESET (R88). -/
def execSwreset (s : State) : Host.Outcome State Fault Refusal := s.micro (sendCommandActs s.cfg.codes.swreset)

/-- SLPOUT (R89). -/
def execSlpout (s : State) : Host.Outcome State Fault Refusal := s.micro (sendCommandActs s.cfg.codes.slpout)

/-- NORON (R90). -/
def execNoron (s : State) : Host.Outcome State Fault Refusal := s.micro (sendCommandActs s.cfg.codes.noron)

/-- INVON (R91). -/
def execInvon (s : State) : Host.Outcome State Fault Refusal := s.micro (sendCommandActs s.cfg.codes.invon)

/-- DISPON (R92). -/
def execDispon (s : State) : Host.Outcome State Fault Refusal := s.micro (sendCommandActs s.cfg.codes.dispon)

/-- CASET (R93). -/
def execCaset (s : State) : Host.Outcome State Fault Refusal := s.micro (sendCommandActs s.cfg.codes.caset)

/-- RASET (R94). -/
def execRaset (s : State) : Host.Outcome State Fault Refusal := s.micro (sendCommandActs s.cfg.codes.raset)

/-- RAMWR (R95). -/
def execRamwr (s : State) : Host.Outcome State Fault Refusal := s.micro (sendCommandActs s.cfg.codes.ramwr)

/-- MADCTL (R96). -/
def execMadctl (s : State) : Host.Outcome State Fault Refusal := s.micro (sendCommandActs s.cfg.codes.madctl)

/-- COLMOD (R97). -/
def execColmod (s : State) : Host.Outcome State Fault Refusal := s.micro (sendCommandActs s.cfg.codes.colmod)

/-- Any other command byte (R98). -/
def execTuningCommand (c : Byte) (s : State) : Host.Outcome State Fault Refusal := s.micro (sendCommandActs c)

/-- A data unit (R86). -/
def execWireData (d : Byte) (s : State) : Host.Outcome State Fault Refusal := s.micro (sendDataActs d)

end Sys2Proof.Machine
end

