-- ==== Sys2Proof/Machine/Dispatch.lean ====
section
/-! DEFINITION. One arm per instruction. -/

namespace Sys2Proof.Machine

def exec (i : Instr) (s : State) : Host.Outcome State Fault Refusal :=
  match i with
  | .setup => Sys2Proof.Machine.execSetup s
  | .update => Sys2Proof.Machine.execUpdate s
  | .dumpConfig => Sys2Proof.Machine.execDumpConfig s
  | .fill r g b => Sys2Proof.Machine.execFill r g b s
  | .pixel x y r g b => Sys2Proof.Machine.execPixel x y r g b s
  | .convert r g b => Sys2Proof.Machine.execConvert r g b s
  | .illegalOpc0 rest => Sys2Proof.Machine.execIllegalOpc0 rest s
  | .illegalOpc7 rest => Sys2Proof.Machine.execIllegalOpc7 rest s
  | .illegalOpc8F rest => Sys2Proof.Machine.execIllegalOpc8F rest s
  | .read a => Sys2Proof.Machine.execRead a s
  | .sendCommand b => Sys2Proof.Machine.execSendCommand b s
  | .sendData b => Sys2Proof.Machine.execSendData b s
  | .sendData16 w => Sys2Proof.Machine.execSendData16 w s
  | .sendColorRun c n => Sys2Proof.Machine.execSendColorRun c n s
  | .setAddressWindow x1 y1 x2 y2 => Sys2Proof.Machine.execSetAddressWindow x1 y1 x2 y2 s
  | .regWrite e => Sys2Proof.Machine.execRegWrite e s
  | .runInit => Sys2Proof.Machine.execRunInit s
  | .hwResetPulse => Sys2Proof.Machine.execHwResetPulse s
  | .toNative r g b => Sys2Proof.Machine.execToNative r g b s
  | .romEntry e => Sys2Proof.Machine.execRomEntry e s
  | .swreset => Sys2Proof.Machine.execSwreset s
  | .slpout => Sys2Proof.Machine.execSlpout s
  | .noron => Sys2Proof.Machine.execNoron s
  | .invon => Sys2Proof.Machine.execInvon s
  | .dispon => Sys2Proof.Machine.execDispon s
  | .caset => Sys2Proof.Machine.execCaset s
  | .raset => Sys2Proof.Machine.execRaset s
  | .ramwr => Sys2Proof.Machine.execRamwr s
  | .madctl => Sys2Proof.Machine.execMadctl s
  | .colmod => Sys2Proof.Machine.execColmod s
  | .tuningCommand c => Sys2Proof.Machine.execTuningCommand c s
  | .wireData d => Sys2Proof.Machine.execWireData d s

end Sys2Proof.Machine
end

