-- ==== Sys2Proof/Machine/Fetch.lean ====
section
/-! DEFINITION. What the machine does next (spec/44_lifecycle.md R190, 60_exceptions.md R220, 70_reset_and_hazards.md R241,
R242): which input it takes, or that it goes on with the operation in progress. The block fetches no instructions (R22);
its "fetch" is taking what the outside presents. -/

namespace Sys2Proof.Machine

/-- What the next step is. -/
inductive Fetch where
  /-- The machine refuses to take any step: its ROM is ill-formed (R102). -/
  | refuseRom
  /-- Run a decoded instruction. -/
  | run (i : Instr) (s : State)
  /-- A descriptor the decoder rejects (R101, R214). -/
  | illegal (s : State)
  /-- A bench record that does not decode (R102). -/
  | badRecord
  /-- `rst_n` is driven to a level (R240, R242). -/
  | driveReset (l : Bool) (s : State)
  /-- Go on with the operation in progress. -/
  | resume (s : State)
  /-- Held for ever, with nothing to take (R220). -/
  | stuck
  /-- Nothing is presented or a turn is passed, or `rst_n` = 0: the block waits (R240, R241). -/
  | wait (s : State)
  deriving DecidableEq, Repr

/-- An encoded instruction taken while the block is ready: decoded under the instance's codes. -/
def State.take (c : Code) (s : State) : Fetch :=
  match decode s.cfg.codes c, c with
  | .ok i, _ => .run i s
  | .rejected _, .romRecord _ => .badRecord
  | .rejected _, _ => .illegal s

/-- The block goes on with its work, or is held (R220). -/
def State.continueWork (s : State) : Fetch :=
  match s.held with
  | some _ => .stuck
  | none => .resume s

/-- A turn the outside passes: the block goes on with its work; in reset, idle or held it waits, so that what is listed
after it can still be taken (R44, R220). -/
def State.passTurn (s : State) : Fetch :=
  if s.rstN && s.inProgress && s.held.isNone then .resume s else .wait s

/-- Register reads (R44) and `rst_n` are taken at any time; while `rst_n` = 0 the block does nothing else (R240);
everything else that is presented waits until the block is ready (R190). -/
def State.select (s : State) : Fetch :=
  match s.inputs with
  | .rstN l :: rest => .driveReset l { s with inputs := rest }
  | .code (.regAddr a) :: rest => .run (.read a) { s with inputs := rest }
  | .pass :: rest => State.passTurn { s with inputs := rest }
  | .code c :: rest =>
    if !s.rstN then .wait s
    else if s.inProgress then s.continueWork
    else State.take c { s with inputs := rest }
  | [] => if s.rstN && s.inProgress then s.continueWork else .wait s

/-- What the next step is. An ill-formed ROM is refused before any step runs (R102); otherwise the one-cycle pulse
`op_done` falls, and the step is selected. -/
def State.fetch (s : State) : Fetch :=
  if !romAdmissible s.cfg then .refuseRom else { s with opDone := false }.select

/-- The machine with the code presented first, at an instruction boundary: out of reset, no operation in progress. -/
def State.present (c : Code) (s : State) : State :=
  { s with inputs := .code c :: s.inputs, seq := .idle, work := [], held := none, rstN := true }

end Sys2Proof.Machine
end

