-- ==== Sys2Proof/Machine/Step.lean ====
section
/-! DEFINITION. One step of the machine. -/

namespace Sys2Proof.Machine

/-- One step: what `fetch` says comes next. -/
def step (s : State) : Host.Outcome State Fault Refusal :=
  match s.fetch with
  | .refuseRom => .refused .illFormedRom
  | .run i s' => exec i s'
  | .illegal s' => s'.rejectDescriptor
  | .badRecord => .refused .illFormedRom
  | .driveReset l s' => .next (s'.driveReset l)
  | .resume s' => .next s'.resume
  | .stuck => .fault .transportHold
  | .wait s' => .next s'

/-- The state with the opcode-table word `w` of `nbits` bits presented where the next step takes its input (log 6, 13).
A word the table does not admit presents nothing. -/
def State.withFetchWord (s : State) (nbits w : Nat) : State :=
  match tableCode nbits w with
  | some c => s.present c
  | none => s

end Sys2Proof.Machine
end

