-- ==== Sys2Proof/Safety.lean ====
section
/-! DEFINITION. What counts as a safe run, in the terms the statements use: an undisturbed run, the traces the spec gives
each operation, the panel states claims rest on (R64, R168, R227), the framing discipline (R117), the invariants. -/

namespace Sys2Proof.Machine

/-! ### The outside lets an operation run through -/

/-- Every coming transport call answers OK, and the outside takes no turn in the middle of an operation (the premises of
R257: every call answers; no reset cuts the operation). -/
abbrev State.Undisturbed (s : State) : Prop :=
  (∀ a ∈ s.transport.script, a = Answer.ok) ∧ s.transport.rest = .ok ∧ s.pauses = []

/-- The panel and the ghost faults after the events `evs`, from the state `s` (R57). -/
def State.observed (s : State) (evs : List Event) : Ghost := Ghost.observeAll s.cfg.codes s.dcLvl evs s.ghost

/-- `s` with the events `evs` emitted, nothing else changed (R9, R57). -/
def State.emitted (s : State) (evs : List Event) : State :=
  { s with trace := s.trace ++ evs, ghost := s.observed evs }

/-! ### The traces the rules give, every call answering OK -/

/-- The trace of SEND_COMMAND(b) (R113). -/
def commandEvents (b : Byte) : List Event := [.pin .dc false, .frameBegin, .byte b, .frameEnd]

/-- The trace of SEND_DATA(b) (R114). -/
def dataEvents (b : Byte) : List Event := [.pin .dc true, .frameBegin, .byte b, .frameEnd]

/-- The trace of SEND_DATA16(w) (R115). -/
def data16Events (w : Half) : List Event :=
  [.pin .dc true, .frameBegin, .byte (hiByte w), .byte (loByte w), .frameEnd]

/-- `n` repetitions of a colour's two bytes (R116). -/
def unitEvents (c : Half) (n : Nat) : List Event :=
  (List.replicate n [Event.byte (hiByte c), Event.byte (loByte c)]).flatten

/-- The trace of SEND_COLOR_RUN(c, n) (R116). -/
def runEvents (c : Half) (n : Nat) : List Event :=
  [.pin .dc true, .frameBegin] ++ unitEvents c n ++ [.frameEnd]

/-- The trace of SET_ADDRESS_WINDOW (R161). -/
def windowEvents (codes : CmdCodes) (x₁ y₁ x₂ y₂ : Half) : List Event :=
  commandEvents codes.caset ++ data16Events x₁ ++ data16Events x₂ ++
  commandEvents codes.raset ++ data16Events y₁ ++ data16Events y₂ ++ commandEvents codes.ramwr

/-- The trace of REG_WRITE(e) (R136). -/
def regWriteEvents (e : RomEntry) : List Event :=
  commandEvents e.cmd ++ (e.data.map dataEvents).flatten ++
  match e.delay with
  | none => []
  | some d => [.wait .settle d]

/-- The trace of RUN_INIT (R137). -/
def romEvents (rom : List RomEntry) : List Event := (rom.map regWriteEvents).flatten

/-- The trace of HW_RESET_PULSE (R138). -/
def pulseEvents (cfg : Config) : List Event :=
  [.pin .rst false, .wait .rstLow cfg.tRstLow, .pin .rst true, .wait .rstRecover cfg.tRstRecover]

/-- The trace of SETUP (R191). -/
def setupEvents (cfg : Config) (rom : List RomEntry) : List Event :=
  [.tCfg, .pinCfg .dc, .pin .dc false] ++
  (if cfg.hasRst then [.pinCfg .rst, .pin .rst true] ++ pulseEvents cfg else []) ++
  romEvents rom ++
  (if cfg.hasBl then [.pinCfg .bl, .pin .bl true] else [])

/-- DC_LVL after REG_WRITE(e): 0 when N = 0 and 1 when N > 0 (R136). -/
def dcAfterEntry (e : RomEntry) : Bool := !e.data.isEmpty

/-- DC_LVL after RUN_INIT, from level `dc`. -/
def dcAfterRom (dc : Bool) (rom : List RomEntry) : Bool := (rom.getLast?.map dcAfterEntry).getD dc

/-- How many transport calls REG_WRITE makes: three for each frame (R136). -/
def entryCalls (e : RomEntry) : Nat := 3 * (1 + e.data.length)

/-- How many transport calls RUN_INIT makes. -/
def romCalls (rom : List RomEntry) : Nat := (rom.map entryCalls).sum

/-- The trace of SETUP, of FILL and of a PIXEL inside the panel (R191, R165, R164); the other operations make no
transport call. -/
def operationEvents (cfg : Config) (rom : List RomEntry) : Instr → List Event
  | .setup => setupEvents cfg rom
  | .fill r g b => windowEvents cfg.codes 0 0 239 239 ++ runEvents (toNative cfg.swapRb r g b) 57600
  | .pixel x y r g b =>
    if inPanel x y then windowEvents cfg.codes x y x y ++ runEvents (toNative cfg.swapRb r g b) 1 else []
  | _ => []

/-! ### A call that does not answer OK (R213, R220) -/

/-- The transport call whose event this is (R110). -/
def Event.call : Event → Option TCall
  | .tCfg => some .cfg
  | .frameBegin => some .frameBegin
  | .byte b => some (.write b)
  | .frameEnd => some .frameEnd
  | .pinCfg _ | .pin _ _ | .wait _ _ | .tFail _ | .warn _ | .report _ => none

/-- The call after `k` others in a trace. -/
def nthCall (k : Nat) (es : List Event) : Option TCall := (es.filterMap Event.call)[k]?

/-- What a trace holds before the call that comes after `k` others. -/
def beforeCall : Nat → List Event → List Event
  | _, [] => []
  | k, e :: es =>
    match e.call, k with
    | none, k => e :: beforeCall k es
    | some _, 0 => []
    | some _, k + 1 => e :: beforeCall k es

/-- FRAME_OPEN after a trace (R25, R110). -/
def frameAfter (wasOpen : Bool) (es : List Event) : Bool :=
  es.foldl (fun f e => match e with | .tCfg | .frameEnd => false | .frameBegin => true | _ => f) wasOpen

/-- The level a pin was last driven to (R31, R111). -/
def levelAfter (p : Pin) (l : Bool) (es : List Event) : Bool :=
  es.foldl (fun l e => match e with | .pin q v => if q = p then v else l | _ => l) l

/-- Whether a pin has been configured (R31, R111). -/
def cfgAfter (p : Pin) (c : Bool) (es : List Event) : Bool := c || es.contains (.pinCfg p)

/-- The coming answers of the transport: OK `k` times, then `a`, then `later`. -/
abbrev State.Answers (s : State) (k : Nat) (a : Answer) (later : List Answer) : Prop :=
  s.pauses = [] ∧ s.transport.script = List.replicate k .ok ++ a :: later

/-- Whichever call of the trace `evs` fails, instruction `i` ends there: the events before the failing call stay, TFail is
the last, nothing more is emitted; READY and RUN_CNT are cleared, ERR_TRANSPORT is set, FRAME_OPEN stays as it was when
the call was made, and the panel observation is CORRUPT (R110, R213). -/
def State.FailsAlong (s : State) (i : Instr) (evs : List Event) : Prop :=
  ∀ (k : Nat) (c : TCall) (later : List Answer), s.Answers k .fail later → nthCall k evs = some c →
    ∃ t, exec i s = .next t ∧ t.trace = s.trace ++ beforeCall k evs ++ [.tFail c] ∧ t.transport.script = later ∧
      t.ready = false ∧ t.errTransport = true ∧ t.runCnt = 0 ∧ t.frameOpen = frameAfter s.frameOpen (beforeCall k evs) ∧
      t.dcLvl = levelAfter .dc s.dcLvl (beforeCall k evs) ∧ t.ghost = s.observed (beforeCall k evs ++ [.tFail c])

/-- The descriptor is ILLEGAL (R101, R107): a row of an unused OPC, or a word the decoder rejects. -/
def isIllegal : Decoded Instr → Bool
  | .rejected _ => true
  | .ok (.illegalOpc0 _) | .ok (.illegalOpc7 _) | .ok (.illegalOpc8F _) => true
  | .ok _ => false

/-- The next step runs instruction `i`. -/
def State.Runs (s : State) (i : Instr) : Prop := ∃ s', s.fetch = .run i s'

/-- The next step rejects a descriptor: of an unused OPC, or one the decoder rejects (R101, R214). -/
def State.Rejects (s : State) : Prop :=
  (∃ u, s.Runs (.illegalOpc0 u)) ∨ (∃ u, s.Runs (.illegalOpc7 u)) ∨ (∃ v, s.Runs (.illegalOpc8F v)) ∨
    ∃ s', s.fetch = .illegal s'

/-- How many events of a stream are wire units, frames, waits (R256). -/
def unitCount (es : List Event) : Nat := (wire es).length
def frameCount (es : List Event) : Nat := es.countP fun e => e == .frameBegin
def waitCount (es : List Event) : Nat := es.countP fun e => match e with | .wait _ _ => true | _ => false

/-- What instruction `i` costs in state `s`: it answers a next state, and the events it appends to the trace are so many,
so many of them wire units, frames and waits (R139, R256). -/
def State.Costs (s : State) (i : Instr) (events units frames waits : Nat) : Prop :=
  ∃ t evs, exec i s = .next t ∧ t.trace = s.trace ++ evs ∧ evs.length = events ∧ unitCount evs = units ∧
    frameCount evs = frames ∧ waitCount evs = waits

/-! ### Panel states -/

/-- The panel R168 starts from: LIVE, not held in reset, no half pixel, nothing to settle, pixel format 0x55. -/
abbrev Panel.PixelReady (p : Panel) : Prop :=
  p.status = .live ∧ p.rstHeld = false ∧ p.pend = none ∧ p.settle = 0 ∧ p.colmod = some colmodData

/-- A claim about the panel may be made: LIVE and no ghost fault (R64). -/
abbrev Ghost.Claimable (g : Ghost) : Prop := g.panel.status = .live ∧ g.faults = []

/-- `Gram(x, y)` (R64). -/
def Ghost.gramAt (g : Ghost) (x y : Nat) : Option Half := g.panel.gram.readCell x y

/-- The cell a data byte stores to, if it stores (R57, R61): a pixel stream, its high byte already there, the cursor in
the window. -/
def Ghost.storeTarget (codes : CmdCodes) (g : Ghost) : Option (Nat × Nat) :=
  match g.panel.status, g.panel.rstHeld, g.panel.pend, g.panel.cur with
  | .live, false, some _, .cell x y => if g.panel.cmd = some codes.ramwr then some (x, y) else none
  | _, _, _, _ => none

/-- The event resets the panel: RST driven low, or a SWRESET command byte that the panel takes (R57, R58). -/
def Ghost.resetBy (codes : CmdCodes) (dc : Bool) (e : Event) (g : Ghost) : Bool :=
  match e with
  | .pin .rst false => true
  | .byte b => !dc && b == codes.swreset && g.panel.status == .live && !g.panel.rstHeld
  | _ => false

/-- Some event of the stream resets the panel, DC starting at level `dc`. -/
def Ghost.resetIn (codes : CmdCodes) : Bool → List Event → Ghost → Bool
  | _, [], _ => false
  | dc, e :: es, g => g.resetBy codes dc e || Ghost.resetIn codes (dcAfter dc e) es (g.observe codes dc e)

/-- The cells a stream of events stores to after its last reset of the panel, from DC at level `dc` (R57, R61). -/
def Ghost.storedCells (codes : CmdCodes) : Bool → List Event → Ghost → List (Nat × Nat)
  | _, [], _ => []
  | dc, e :: es, g =>
    (match dc, e, Ghost.resetIn codes (dcAfter dc e) es (g.observe codes dc e) with
      | true, .byte _, false => (g.storeTarget codes).toList
      | _, _, _ => []) ++ Ghost.storedCells codes (dcAfter dc e) es (g.observe codes dc e)

/-- Cell (x, y) lies in the window (x1, y1)-(x2, y2). -/
abbrev inWindow (x₁ y₁ x₂ y₂ x y : Nat) : Prop := x₁ ≤ x ∧ x ≤ x₂ ∧ y₁ ≤ y ∧ y ≤ y₂

/-- How many cells row-major order puts before (x, y) in the window from (x1, y1), `w` cells wide (R63). -/
def scanIndex (x₁ y₁ w x y : Nat) : Nat := (y - y₁) * w + (x - x₁)

/-- The ROM's trace leaves a panel that takes bytes as R227's second premise asks, from every panel that takes bytes:
no new ghost fault, `colmod` = 0x55, no half pixel; and, what R168 asks besides, nothing left to settle. -/
def RomQuiet (codes : CmdCodes) (rom : List RomEntry) : Prop :=
  ∀ (dc : Bool) (g : Ghost), g.panel.status = .live → g.panel.rstHeld = false → g.panel.pend = none → g.panel.settle = 0 →
    (Ghost.observeAll codes dc (romEvents rom) g).faults = g.faults ∧
    (Ghost.observeAll codes dc (romEvents rom) g).panel.PixelReady

/-- The instance and the outside that R227 speaks of: distinct command codes, an admissible ROM that leaves a good panel,
every call answered OK, no reset, and only the host's two ports used. -/
def State.GoodSetting (s : State) : Prop :=
  s.cfg.codes.Distinct ∧ (∃ rom, initRom s.cfg = some rom ∧ RomQuiet s.cfg.codes rom) ∧ s.Undisturbed ∧
  ∀ i ∈ s.inputs, (∃ w, i = .code (.descriptor w)) ∨ (∃ a, i = .code (.regAddr a)) ∨ i = .pass

/-- R227 as an invariant between operations: no ghost fault, a panel that takes bytes, the pixel format set when READY. -/
def State.FaultFree (s : State) : Prop :=
  s.GoodSetting ∧ s.inProgress = false ∧ s.ghost.faults = [] ∧ s.ghost.panel.status = .live ∧
  s.ghost.panel.rstHeld = false ∧ s.ghost.panel.pend = none ∧ s.ghost.panel.settle = 0 ∧
  (s.ready = true → s.ghost.panel.colmod = some colmodData)

/-! ### The framing discipline (R117) -/

/-- Where a stream of events stands: outside a frame; outside, with DC just driven; inside a frame. -/
inductive FrameState where
  | closed | levelSet | opened
  deriving DecidableEq, Repr

/-- What one event does to it; `none` when the event breaks R117 (a) to (d). `configure()` ends any frame (R110). -/
def FrameState.after (f : FrameState) (e : Event) : Option FrameState :=
  match f, e with
  | _, .tCfg => some .closed
  | .opened, .pin .dc _ => none
  | _, .pin .dc _ => some .levelSet
  | .levelSet, .frameBegin => some .opened
  | _, .frameBegin => none
  | .opened, .byte _ => some .opened
  | _, .byte _ => none
  | .opened, .frameEnd => some .closed
  | _, .frameEnd => none
  | f, _ => some f

/-- What a stream of events does to it; `none` when some event breaks R117. -/
def FrameState.run : FrameState → List Event → Option FrameState
  | f, [] => some f
  | f, e :: es =>
    match f.after e with
    | none => none
    | some f' => f'.run es

/-- A stream that keeps R117 (a) to (d) from where it stands. -/
def wellFramed (f : FrameState) (es : List Event) : Bool := (f.run es).isSome

/-- The events an act emits when its call, if it makes one, answers OK; what a Report holds does not matter here. -/
def Act.events : Act → List Event
  | .pinConfigure p => [.pinCfg p]
  | .pinWrite p l => [.pin p l]
  | .tcall c => [c.event]
  | .wait k ms => [.wait k ms]
  | .emitWarn => [.warn .notReady]
  | .emitReport => [.report []]
  | .setReady _ | .clearSticky | .setIllegalOp | .setWarn | .romStart | .romNext | .runLoad _ | .runNext
  | .convert _ _ _ | .latchNative | .storeNative | .complete _ => []

/-- Only the block's own ports are used: descriptors, register reads, `rst_n`; no bench unit (log 11, 12). -/
abbrev State.PortsOnly (s : State) : Prop :=
  ∀ i ∈ s.inputs, (∃ w, i = .code (.descriptor w)) ∨ (∃ a, i = .code (.regAddr a)) ∨ (∃ l, i = .rstN l) ∨ i = .pass

/-- R117 as an invariant: the trace keeps the discipline; the pending acts will keep it from there; FRAME_OPEN is 1 only
inside a frame; and where a frame is left open for good, by an abort or a reset, the block is not ready (R213). -/
def State.Framed (s : State) : Prop :=
  s.PortsOnly ∧ ∃ f f' : FrameState, FrameState.run .closed s.trace = some f ∧
    f.run (s.work.flatMap Act.events) = some f' ∧ (s.frameOpen = true → f = .opened) ∧
    (f' = .opened → s.ready = false ∧ Act.setReady true ∉ s.work)

/-- TFail, when it occurs, is the last event (R215). -/
def failureLast : List Event → Bool
  | [] => true
  | .tFail _ :: es => es.isEmpty
  | _ :: es => failureLast es

/-! ### Invariants -/

/-- The cursor stands inside a valid window, on all four sides, or stands nowhere (R60, R63). -/
def Panel.cursorInside (p : Panel) : Bool :=
  match p.cur, p.colWin, p.rowWin with
  | .cell x y, some col, some row => windowValid col row &&
    decide (col.1.toNat ≤ x ∧ x ≤ col.2.toNat ∧ row.1.toNat ≤ y ∧ y ≤ row.2.toNat)
  | .cell _ _, _, _ => false
  | _, _, _ => true

/-- The observation is sound: display memory and parameter table in canonical form (the model's representation, log 16), and
in a pixel stream the cursor stands inside the window the stream was opened with. -/
abbrev Ghost.Sound (codes : CmdCodes) (g : Ghost) : Prop :=
  Memory.wf g.panel.gram ∧ Table.wf g.panel.regs ∧ (∀ c ∈ g.panel.regs, c.1 < 256) ∧
  (g.panel.cmd = some codes.ramwr → g.panel.cursorInside = true)

/-- The observation of a state is sound under the instance's command codes. -/
abbrev State.DisplaySound (s : State) : Prop := s.ghost.Sound s.cfg.codes

/-- An act on pin `p`. -/
def Act.onPin (p : Pin) : Act → Bool
  | .pinConfigure q => q == p
  | .pinWrite q _ => q == p
  | _ => false

/-- An absent pin is undriven and nothing pending touches it (R31). -/
abbrev State.AbsentPinsIdle (s : State) : Prop :=
  (s.cfg.hasRst = false → s.rstCfg = false ∧ s.rstLvl = false ∧ ∀ a ∈ s.work, a.onPin .rst = false) ∧
  (s.cfg.hasBl = false → s.blCfg = false ∧ s.blLvl = false ∧ ∀ a ∈ s.work, a.onPin .bl = false)

/-- RUN_CNT after the acts `as`, from `k`. -/
def runCntAfter : BitVec 32 → List Act → BitVec 32
  | k, [] => k
  | _, .runLoad n :: as => runCntAfter n as
  | k, .runNext :: as => runCntAfter (k - 1) as
  | k, _ :: as => runCntAfter k as

/-- The pending acts bring RUN_CNT back to 0; so it is 0 when no operation is in progress (R24). -/
abbrev State.RunBalanced (s : State) : Prop := runCntAfter s.runCnt s.work = 0

end Sys2Proof.Machine
end

