-- ==== Sys2Proof/Certificates/Slice0/Obligations.lean ====
section
/-! DEFINITION. What is to be proved of the machine. Each docstring names the rule of spec/ it formalises. -/

open Sys2Proof Sys2Proof.Machine

/-! ## Encodings -/

/-- Words written out from the encodings of the spec decode to what they stand for (R84, R86, R99; spec/95 section 2.1). -/
def Obligations.SpecWordsDecode : Prop :=
  decodeDescriptor 0x1000000000000000 = .ok .setup ∧
  decodeDescriptor 0x4000000000FF0000 = .ok (.fill 255 0 0) ∧
  decodeDescriptor 0x50FFFF000500FF00 = .ok (.pixel (-1) 5 0 255 0) ∧
  decodeDescriptor 0x6000000000123456 = .ok (.convert 0x12 0x34 0x56) ∧
  decodeDescriptor 0x3100000000000000 = .rejected .reservedField ∧
  decode CmdCodes.default (.unit 0b000101100) = .ok .ramwr ∧
  decode CmdCodes.default (.unit 0b101010101) = .ok (.wireData 0x55) ∧
  decode CmdCodes.default (.romRecord [0x01, 0x80, 0x00, 0x78]) = .ok (.romEntry ⟨0x01, [], some 120⟩)

/-- No bit of an encoding is dropped: every well-formed instruction that has an encoding is read back from it, under any
ten distinct command codes. -/
def Obligations.DecodeInvertsEncode : Prop :=
  ∀ (codes : CmdCodes) (i : Instr) (c : Code), codes.Distinct → i.wellFormed codes = true →
    encode codes i = some c → decode codes c = .ok i

/-- R84: match and mask of each operation, and every other descriptor illegal. -/
def Obligations.DescriptorsDecodeByMaskAndMatch : Prop :=
  ∀ w : Descriptor,
    (decodeDescriptor w = .ok .setup ↔ w &&& 0xFFFFFFFFFFFFFFFF = 0x1000000000000000) ∧
    (decodeDescriptor w = .ok .update ↔ w &&& 0xFFFFFFFFFFFFFFFF = 0x2000000000000000) ∧
    (decodeDescriptor w = .ok .dumpConfig ↔ w &&& 0xFFFFFFFFFFFFFFFF = 0x3000000000000000) ∧
    ((∃ r g b, decodeDescriptor w = .ok (.fill r g b)) ↔ w &&& 0xFFFFFFFFFF000000 = 0x4000000000000000) ∧
    ((∃ x y r g b, decodeDescriptor w = .ok (.pixel x y r g b)) ↔ w &&& 0xFF00000000000000 = 0x5000000000000000) ∧
    ((∃ r g b, decodeDescriptor w = .ok (.convert r g b)) ↔ w &&& 0xFFFFFFFFFF000000 = 0x6000000000000000) ∧
    (isIllegal (decodeDescriptor w) = true ↔
      w &&& 0xFFFFFFFFFFFFFFFF ≠ 0x1000000000000000 ∧ w &&& 0xFFFFFFFFFFFFFFFF ≠ 0x2000000000000000 ∧
      w &&& 0xFFFFFFFFFFFFFFFF ≠ 0x3000000000000000 ∧ w &&& 0xFFFFFFFFFF000000 ≠ 0x4000000000000000 ∧
      w &&& 0xFF00000000000000 ≠ 0x5000000000000000 ∧ w &&& 0xFFFFFFFFFF000000 ≠ 0x6000000000000000)

/-- R82, R83: the operand fields; PIXEL's coordinates sign-extended. -/
def Obligations.OperandsComeFromTheirFields : Prop :=
  ∀ (w : Descriptor) (x y : Half) (r g b : Byte),
    (decodeDescriptor w = .ok (.pixel x y r g b) →
      x.signExtend 32 = (w.extractLsb' 40 16).signExtend 32 ∧ y.signExtend 32 = (w.extractLsb' 24 16).signExtend 32 ∧
      -32768 ≤ x.toInt ∧ x.toInt ≤ 32767 ∧ -32768 ≤ y.toInt ∧ y.toInt ≤ 32767 ∧
      r = w.extractLsb' 16 8 ∧ g = w.extractLsb' 8 8 ∧ b = w.extractLsb' 0 8) ∧
    (decodeDescriptor w = .ok (.fill r g b) ∨ decodeDescriptor w = .ok (.convert r g b) →
      r = w.extractLsb' 16 8 ∧ g = w.extractLsb' 8 8 ∧ b = w.extractLsb' 0 8 ∧ w.extractLsb' 24 32 = 0)

/-- R99, R100: an image is read back, record by record, by its own CTL bytes. -/
def Obligations.RomImageReadsBack : Prop :=
  ∀ rom : List RomEntry, (∀ e ∈ rom, e.wellFormed = true) → decodeRom rom.length (encodeRom rom) = .ok rom

/-- R102: reserved CTL bits, a delay of 0, an image that ends inside an entry, bytes after the last entry. -/
def Obligations.IllFormedImagesRejected : Prop :=
  ∀ rom : List RomEntry, (∀ e ∈ rom, e.wellFormed = true) →
    (∀ (n : Nat) (cmd ctl : Byte) (rest : List Byte), ctl.extractLsb' 4 3 ≠ 0 →
      decodeRom (rom.length + (n + 1)) (encodeRom rom ++ cmd :: ctl :: rest) = .rejected .romReservedCtl) ∧
    (∀ (n : Nat) (cmd : Byte) (data rest : List Byte), data.length ≤ 15 →
      decodeRom (rom.length + (n + 1))
        (encodeRom rom ++ cmd :: ((0x80#8) + BitVec.ofNat 8 data.length) :: (data ++ 0x00 :: 0x00 :: rest))
        = .rejected .romZeroDelay) ∧
    (∀ (n : Nat) (e : RomEntry) (k : Nat), e.wellFormed = true → k < (encodeRomEntry e).length →
      decodeRom (rom.length + (n + 1)) (encodeRom rom ++ (encodeRomEntry e).take k) = .rejected .romTruncated) ∧
    (∀ (b : Byte) (rest : List Byte), decodeRom rom.length (encodeRom rom ++ b :: rest) = .rejected .romTrailing)

/-- R131, R132: the reference composition passes the content checks, with a tuning table that has no COLMOD or MADCTL
entry and with delays that meet their bounds. Distinct command codes are the model's premise (log 20). -/
def Obligations.ReferenceCompositionAdmissible : Prop :=
  ∀ (codes : CmdCodes) (swapRb : Bool) (t : SettleTimes) (tuning : List RomEntry), codes.Distinct →
    120 ≤ t.swreset.toNat → 120 ≤ t.slpout.toNat → 10 ≤ t.invon.toNat → 10 ≤ t.noron.toNat → 120 ≤ t.dispon.toNat →
    (∀ e ∈ tuning, e.wellFormed = true ∧ e.cmd ≠ codes.colmod ∧ e.cmd ≠ codes.madctl) →
    romContentOk codes swapRb (referenceRom codes swapRb t tuning) = true ∧
    ∀ cfg : Config, cfg.codes = codes → cfg.swapRb = swapRb →
      cfg.romImage = encodeRom (referenceRom codes swapRb t tuning) → cfg.romEntries = tuning.length + 7 →
      initRom cfg = some (referenceRom codes swapRb t tuning)

/-! ## The step -/

/-- A step at an instruction boundary is `exec` of the instruction the presented code decodes to, the input taken and the
one-cycle `op_done` lowered. Register reads are taken at any time (R44); every other code when the block accepts it
(R190, R240). -/
def Obligations.StepRunsTheDecodedInstruction : Prop :=
  ∀ (s : State) (c : Code) (rest : List Input) (i : Instr), romAdmissible s.cfg = true → s.inputs = .code c :: rest →
    (s.accepts = true ∨ ∃ a, c = .regAddr a) → decode s.cfg.codes c = .ok i →
    step s = exec i { s with opDone := false, inputs := rest }

/-- R214: every ILLEGAL descriptor, of an unused OPC or with a field that must be 0 and is not, sets ERR_ILLEGAL_OP and
completes with status 3, and does nothing else. -/
def Obligations.StepRejectsIllegalDescriptors : Prop :=
  ∀ (s : State) (w : Descriptor) (rest : List Input), romAdmissible s.cfg = true →
    s.inputs = .code (.descriptor w) :: rest → s.accepts = true → s.pauses = [] →
    isIllegal (decodeDescriptor w) = true →
    step s = .next { s with inputs := rest, errIllegalOp := true, opDone := true, opStatus := 0x3 }

/-- R102, R132: an instance's ROM is admissible only if its image decodes and meets the content checks (a) to (g), written
out here, and then it is the ROM; any other is refused before any step runs. -/
def Obligations.InadmissibleRomRefused : Prop :=
  (∀ (cfg : Config) (rom : List RomEntry), initRom cfg = some rom ↔
    decodeRom cfg.romEntries cfg.romImage = .ok rom ∧
    (∃ d : Half, 120 ≤ d.toNat ∧ ⟨cfg.codes.swreset, [], some d⟩ ∈ rom) ∧
    (∃ d : Half, 120 ≤ d.toNat ∧ ⟨cfg.codes.slpout, [], some d⟩ ∈ rom) ∧
    (∃ dl, ⟨cfg.codes.colmod, [0x55], dl⟩ ∈ rom) ∧ (∀ e ∈ rom, e.cmd = cfg.codes.colmod → e.data = [0x55]) ∧
    (∃ dl, ⟨cfg.codes.madctl, [if cfg.swapRb then 0x00 else 0x08], dl⟩ ∈ rom) ∧
    (∀ e ∈ rom, e.cmd = cfg.codes.madctl → e.data = [if cfg.swapRb then 0x00 else 0x08]) ∧
    (∃ d : Half, 10 ≤ d.toNat ∧ ⟨cfg.codes.invon, [], some d⟩ ∈ rom) ∧
    (∃ d : Half, 10 ≤ d.toNat ∧ ⟨cfg.codes.noron, [], some d⟩ ∈ rom) ∧
    (∃ d : Half, 120 ≤ d.toNat ∧ ⟨cfg.codes.dispon, [], some d⟩ ∈ rom) ∧
    ∀ e ∈ rom, e.data.length ≤ 15 ∧ ∀ d, e.delay = some d → 1 ≤ d.toNat ∧ d.toNat ≤ 65535) ∧
  ∀ s : State, (∀ rom, initRom s.cfg ≠ some rom) →
    step s = .refused .illFormedRom ∧ exec .setup s = .refused .illFormedRom ∧ exec .runInit s = .refused .illFormedRom

/-- R190, R240, R241, R44: while SEQ = BUSY a presented descriptor is not accepted: the block goes on with its work and the
request stays presented. While `rst_n` = 0 no operation is accepted: the request stays presented and the block waits; so it
does with nothing presented and nothing in progress, and runs nothing on its own. No host operation changes anything in a
state in which the block does not accept. A turn the outside passes takes nothing: a BUSY block goes on to its next turn,
so that what is listed after it, a register read among it, comes at a later point of the same operation; any other block
waits (the model's choice: log 6). `rst_n` is 1 at power-on, a level that does not change does nothing (log 8), and a fall
that cuts a lone micro-operation, SEQ IDLE, treats the panel as R242 does for SEQ = BUSY (log 14): the model's choices. -/
def Obligations.BlockTakesOnlyWhenReady : Prop :=
  (∀ (s : State) (w : Descriptor) (rest : List Input), romAdmissible s.cfg = true → s.rstN = true →
    s.inputs = .code (.descriptor w) :: rest → s.seq = .busy → s.held = none →
    ∃ t, step s = .next t ∧ t = { s with opDone := false }.resume ∧ t.inputs = s.inputs) ∧
  (∀ s : State, romAdmissible s.cfg = true → s.rstN = false →
    (s.inputs = [] ∨ ∃ w rest, s.inputs = .code (.descriptor w) :: rest) → step s = .next { s with opDone := false }) ∧
  (∀ s : State, romAdmissible s.cfg = true → s.inputs = [] → s.accepts = true →
    step s = .next { s with opDone := false }) ∧
  (∀ (s : State) (x y : Half) (r g b : Byte) (u : BitVec 60) (v : BitVec 63), romAdmissible s.cfg = true →
    (s.rstN = false ∨ s.seq = .busy) →
    ∀ i ∈ [Instr.setup, .update, .dumpConfig, .fill r g b, .pixel x y r g b, .convert r g b, .illegalOpc0 u,
        .illegalOpc7 u, .illegalOpc8F v], exec i s = .next s) ∧
  (∀ (s : State) (rest : List Input), romAdmissible s.cfg = true → s.inputs = .pass :: rest →
    (s.rstN = true → s.seq = .busy → s.held = none →
      ∃ t, step s = .next t ∧ t = { s with opDone := false, inputs := rest }.resume ∧ t.inputs = rest) ∧
    (s.rstN = false ∨ s.accepts = true ∨ s.held.isSome = true →
      step s = .next { s with opDone := false, inputs := rest })) ∧
  State.reset.rstN = true ∧
  ∀ (s : State) (l : Bool) (rest : List Input), romAdmissible s.cfg = true → s.inputs = .rstN l :: rest →
    (s.rstN = l → step s = .next { s with opDone := false, inputs := rest }) ∧
    (s.rstN = true → l = false → s.seq = .idle → s.inProgress = true →
      ∃ t, step s = .next t ∧ t.ghost.panel = { s.ghost.panel with status := .corrupt } ∧
        ∀ f, f ∈ t.ghost.faults ↔ f = .abortedByReset ∨ f ∈ s.ghost.faults)

/-- R220: a held block takes no step of its own and accepts nothing, but register reads still answer, BUSY reading 1. -/
def Obligations.HeldBlockIsStuckButReads : Prop :=
  ∀ (s : State) (c : TCall), romAdmissible s.cfg = true → s.rstN = true → s.held = some c → s.seq = .busy →
    ((s.inputs = [] ∨ ∃ w rest, s.inputs = .code (.descriptor w) :: rest) → step s = .fault .transportHold) ∧
    (∀ (a : RegAddr) (rest : List Input), s.inputs = .code (.regAddr a) :: rest →
      step s = .next { s with opDone := false, inputs := rest, regRdata := s.regValue a }) ∧
    (s.regValue 3).getLsbD 4 = true

/-- R220: an operation whose call after `k` answered ones is never answered stays BUSY in that call: the events before it
stay, no further event, no completion. The reset and the outside's turns are excluded by the premises. -/
def Obligations.UnansweredCallHolds : Prop :=
  ∀ (s : State) (rom : List RomEntry) (i : Instr) (k : Nat) (c : TCall) (later : List Answer), s.accepts = true →
    initRom s.cfg = some rom → (s.ready = true ∨ i = .setup) → s.Answers k .never later →
    nthCall k (operationEvents s.cfg rom i) = some c →
    ∃ t, exec i s = .next t ∧ t.seq = .busy ∧ t.opReady = false ∧ t.held = some c ∧ t.opDone = false ∧ t.work ≠ [] ∧
      t.transport.script = later ∧ t.trace = s.trace ++ beforeCall k (operationEvents s.cfg rom i)

/-- R213: an operation with a call that answers FAIL is aborted: the events before the call stay, TFail is the last event,
no further call is made; READY and RUN_CNT are cleared, ERR_TRANSPORT set, status 2; ROM_IDX, FRAME_OPEN, the pin fields,
NATIVE_RESULT and the latches are as the operation's steps before the call left them, so ROM_IDX is at the entry whose call
failed, or as SETUP found it when `configure()` failed; the other two sticky bits are cleared by SETUP's entry and by
nothing else; the panel is CORRUPT and TRANSPORT recorded. -/
def Obligations.TransportFailureAborts : Prop :=
  ∀ (s : State) (rom : List RomEntry) (i : Instr) (k : Nat) (c : TCall) (later : List Answer), s.accepts = true →
    initRom s.cfg = some rom → (s.ready = true ∨ i = .setup) → s.Answers k .fail later →
    nthCall k (operationEvents s.cfg rom i) = some c →
    ∃ t evs, evs = beforeCall k (operationEvents s.cfg rom i) ∧ exec i s = .next t ∧
      t.trace = s.trace ++ evs ++ [.tFail c] ∧ t.transport.script = later ∧
      t.ready = false ∧ t.errTransport = true ∧ t.runCnt = 0 ∧ t.seq = .idle ∧ t.work = [] ∧ t.opDone = true ∧
      t.opStatus = 0x2 ∧ t.frameOpen = frameAfter s.frameOpen evs ∧ t.nativeResult = s.nativeResult ∧
      t.dcLvl = levelAfter .dc s.dcLvl evs ∧ t.rstLvl = levelAfter .rst s.rstLvl evs ∧
      t.blLvl = levelAfter .bl s.blLvl evs ∧ t.dcCfg = cfgAfter .dc s.dcCfg evs ∧ t.rstCfg = cfgAfter .rst s.rstCfg evs ∧
      t.blCfg = cfgAfter .bl s.blCfg evs ∧
      t.ghost = s.observed (evs ++ [.tFail c]) ∧ t.ghost.panel.status = .corrupt ∧ .transport ∈ t.ghost.faults ∧
      (i = .setup → t.errIllegalOp = false ∧ t.warnNotReady = false ∧ t.latches.opc = 0x1 ∧
        t.nativeLatch = s.nativeLatch ∧ (k = 0 → t.romIdx = s.romIdx) ∧
        ∀ (j m : Nat) (e : RomEntry), rom[j]? = some e → m < entryCalls e → k = 1 + romCalls (rom.take j) + m →
          t.romIdx = j) ∧
      (i ≠ .setup → t.errIllegalOp = s.errIllegalOp ∧ t.warnNotReady = s.warnNotReady ∧ t.romIdx = s.romIdx) ∧
      (∀ r g b, i = .fill r g b → t.latches.opc = 0x4 ∧ t.latches.cr = r ∧ t.latches.cg = g ∧ t.latches.cb = b ∧
        t.nativeLatch = if k < 25 then s.nativeLatch else toNative s.cfg.swapRb r g b) ∧
      ∀ x y r g b, i = .pixel x y r g b → t.latches = ⟨0x5, x, y, r, g, b⟩ ∧
        t.nativeLatch = if k < 25 then s.nativeLatch else toNative s.cfg.swapRb r g b

/-- R44, R54, R69: an operation the outside interrupts after any number of acts, with a register read in between, ends in
the state it ends in uninterrupted, but for the read data. That the outside's turns fall between acts, and which
assignments are one act, is the model's choice (log 7). -/
def Obligations.InterruptedOperationEndsTheSame : Prop :=
  ∀ (as : List Act) (s : State) (k : Nat) (v : Half), s.work = [] → s.pauses = [] →
    (State.perform as { s with pauses := [k] }).work ≠ [] → (State.perform as { s with pauses := [k] }).held = none →
    { State.perform as { s with pauses := [k] } with regRdata := v }.resume
      = { State.perform as s with regRdata := v }

/-! ## Reset -/

/-- R46, R240, R242: power-on reset, every value the spec gives. `rst_n` falling after it: the block state takes its reset
values, panel, ghost faults and trace are kept, and, when SEQ was BUSY, the panel is CORRUPT and ABORTED_BY_RESET is
recorded. While it is 0 a presented operation is not accepted. `rst_n` returning to 1: the block state holds its reset
values, and nothing else changes. (The operand latches are unspecified and not named; what is the model's own choice here,
log 8 and 14, is in BlockTakesOnlyWhenReady.) -/
def Obligations.ResetValues : Prop :=
  (State.reset.ready = false ∧ State.reset.errTransport = false ∧ State.reset.errIllegalOp = false ∧
    State.reset.warnNotReady = false ∧ State.reset.nativeResult = 0x0000 ∧
    State.reset.dcCfg = false ∧ State.reset.dcLvl = false ∧ State.reset.rstCfg = false ∧ State.reset.rstLvl = false ∧
    State.reset.blCfg = false ∧ State.reset.blLvl = false ∧ State.reset.seq = .idle ∧ State.reset.opReady = true ∧
    State.reset.romIdx = 0 ∧ State.reset.runCnt = 0 ∧ State.reset.frameOpen = false ∧
    State.reset.ghost.panel = Panel.initial ∧ State.reset.ghost.faults = [] ∧ State.reset.trace = []) ∧
  (∀ (s : State) (w : Descriptor) (rest : List Input), romAdmissible s.cfg = true → s.rstN = false →
    s.inputs = .code (.descriptor w) :: rest → step s = .next { s with opDone := false }) ∧
  ∀ (s : State) (l : Bool) (rest : List Input), romAdmissible s.cfg = true → s.inputs = .rstN l :: rest → s.rstN ≠ l →
    ∃ t, step s = .next t ∧ t.rstN = l ∧ t.inputs = rest ∧ t.cfg = s.cfg ∧ t.trace = s.trace ∧ t.opDone = false ∧
      t.inProgress = false ∧ t.seq = .idle ∧ t.romIdx = 0 ∧ t.runCnt = 0 ∧ t.frameOpen = false ∧ t.ready = false ∧
      t.errTransport = false ∧ t.errIllegalOp = false ∧ t.warnNotReady = false ∧ t.nativeResult = 0x0000 ∧
      t.dcCfg = false ∧ t.dcLvl = false ∧ t.rstCfg = false ∧ t.rstLvl = false ∧ t.blCfg = false ∧ t.blLvl = false ∧
      t.regValue 0x3 = 0x0000 ∧ t.regValue 0x5 = 0x0000 ∧
      (l = true ∨ s.inProgress = false → t.ghost = s.ghost) ∧
      (l = false → s.seq = .busy → t.ghost.panel = { s.ghost.panel with status := .corrupt } ∧
        ∀ f, f ∈ t.ghost.faults ↔ f = .abortedByReset ∨ f ∈ s.ghost.faults)

/-! ## The register port -/

/-- R34 to R44, R85: a register read completes at any time, changes nothing but the read data, and returns each register's
stated value; STATUS, PINS and NATIVE_RESULT read 0 at reset. -/
def Obligations.RegisterReadsReturnTheMap : Prop :=
  ∀ (s : State) (a : RegAddr),
    exec (.read a) s = .next { s with regRdata := s.regValue a } ∧
    s.regValue 0x0 = 0x00F0 ∧ s.regValue 0x1 = 0x00F0 ∧ s.regValue 0x2 = 0x0001 ∧
    (s.regValue 0x3).getLsbD 0 = s.ready ∧ (s.regValue 0x3).getLsbD 1 = s.errTransport ∧
    (s.regValue 0x3).getLsbD 2 = s.errIllegalOp ∧ (s.regValue 0x3).getLsbD 3 = s.warnNotReady ∧
    ((s.regValue 0x3).getLsbD 4 = true ↔ s.seq = .busy) ∧ (∀ n, 5 ≤ n → (s.regValue 0x3).getLsbD n = false) ∧
    (s.regValue 0x4).getLsbD 0 = s.cfg.hasRst ∧ (s.regValue 0x4).getLsbD 1 = s.cfg.hasBl ∧
    (s.regValue 0x4).getLsbD 2 = s.cfg.swapRb ∧ (∀ n, 3 ≤ n → (s.regValue 0x4).getLsbD n = false) ∧
    (s.regValue 0x5).getLsbD 0 = s.dcCfg ∧ (s.regValue 0x5).getLsbD 1 = (s.dcCfg && s.dcLvl) ∧
    (s.regValue 0x5).getLsbD 2 = s.rstCfg ∧ (s.regValue 0x5).getLsbD 3 = (s.rstCfg && s.rstLvl) ∧
    (s.regValue 0x5).getLsbD 4 = s.blCfg ∧ (s.regValue 0x5).getLsbD 5 = (s.blCfg && s.blLvl) ∧
    (∀ n, 6 ≤ n → (s.regValue 0x5).getLsbD n = false) ∧
    s.regValue 0x6 = s.nativeResult ∧
    s.regValue 0x7 = (if s.cfg.swapRb then 0x0000 else 0x0008) ∧
    (8 ≤ a.toNat → s.regValue a = 0x0000) ∧
    State.reset.regValue 0x3 = 0x0000 ∧ State.reset.regValue 0x5 = 0x0000 ∧ State.reset.regValue 0x6 = 0x0000

/-! ## The converter -/

/-- R181, R182: the packed word as bit fields, for either value of the strap. -/
def Obligations.NativeColorFields : Prop :=
  ∀ r g b : Byte,
    toNative false r g b = r.extractLsb' 3 5 ++ g.extractLsb' 2 6 ++ b.extractLsb' 3 5 ∧
    toNative true r g b = b.extractLsb' 3 5 ++ g.extractLsb' 2 6 ++ r.extractLsb' 3 5

/-- R186, R187: the channel laws; each field of the word depends on one channel, and every 16-bit value is the native
colour of some colour, under either value of the strap. -/
def Obligations.ChannelLaws : Prop :=
  (∀ v r g b : Byte,
    toNative false v 0 0 >>> 11 = (v >>> 3).setWidth 16 ∧
    toNative false 0 v 0 >>> 5 &&& 0x3F = (v >>> 2).setWidth 16 ∧
    toNative false 0 0 v &&& 0x1F = (v >>> 3).setWidth 16 ∧
    ((toNative false r g b).extractLsb' 11 5).toNat = r.toNat / 8 ∧
    ((toNative false r g b).extractLsb' 5 6).toNat = g.toNat / 4 ∧
    ((toNative false r g b).extractLsb' 0 5).toNat = b.toNat / 8 ∧
    ((toNative true r g b).extractLsb' 11 5).toNat = b.toNat / 8 ∧
    ((toNative true r g b).extractLsb' 5 6).toNat = g.toNat / 4 ∧
    ((toNative true r g b).extractLsb' 0 5).toNat = r.toNat / 8) ∧
  ∀ (n : Half) (swapRb : Bool), ∃ r g b : Byte, toNative swapRb r g b = n

/-- R184, R185: CONVERT and TO_NATIVE complete, with the formula's value, and change nothing else: no event, no flag but
the completion, READY not read. -/
def Obligations.ConversionsComplete : Prop :=
  ∀ (s : State) (r g b : Byte), s.pauses = [] →
    (exec (.toNative r g b) s = .next { s with cvNative := toNative s.cfg.swapRb r g b }) ∧
    (s.accepts = true → ∃ l : Latches, l.opc = 0x6 ∧ l.cr = r ∧ l.cg = g ∧ l.cb = b ∧
      exec (.convert r g b) s = .next { s with
        nativeResult := toNative s.cfg.swapRb r g b, cvNative := toNative s.cfg.swapRb r g b,
        latches := l, opDone := true, opStatus := 0x0 })

/-! ## Framing -/

/-- R113: SEND_COMMAND; and wherever a call of it fails. -/
def Obligations.SendCommandCompletes : Prop :=
  ∀ (s : State) (b : Byte),
    (s.Undisturbed → exec (.sendCommand b) s = .next { s.emitted [.pin .dc false, .frameBegin, .byte b, .frameEnd] with
      dcLvl := false, frameOpen := false, transport := s.transport.after 3 }) ∧
    s.FailsAlong (.sendCommand b) [.pin .dc false, .frameBegin, .byte b, .frameEnd]

/-- R114: SEND_DATA; and wherever a call of it fails. -/
def Obligations.SendDataCompletes : Prop :=
  ∀ (s : State) (b : Byte),
    (s.Undisturbed → exec (.sendData b) s = .next { s.emitted [.pin .dc true, .frameBegin, .byte b, .frameEnd] with
      dcLvl := true, frameOpen := false, transport := s.transport.after 3 }) ∧
    s.FailsAlong (.sendData b) [.pin .dc true, .frameBegin, .byte b, .frameEnd]

/-- R115: SEND_DATA16, high byte first; and wherever a call of it fails. -/
def Obligations.SendData16Completes : Prop :=
  ∀ (s : State) (w : Half),
    (s.Undisturbed → exec (.sendData16 w) s = .next {
      s.emitted [.pin .dc true, .frameBegin, .byte (w.extractLsb' 8 8), .byte (w.extractLsb' 0 8), .frameEnd] with
      dcLvl := true, frameOpen := false, transport := s.transport.after 4 }) ∧
    s.FailsAlong (.sendData16 w)
      [.pin .dc true, .frameBegin, .byte (w.extractLsb' 8 8), .byte (w.extractLsb' 0 8), .frameEnd]

/-- R116: SEND_COLOR_RUN, every length, 0 among them: one frame, n units, RUN_CNT back at 0; and wherever a call fails. -/
def Obligations.SendColorRunCompletes : Prop :=
  ∀ (s : State) (c : Half) (n : BitVec 32),
    (s.Undisturbed → exec (.sendColorRun c n) s = .next { s.emitted (runEvents c n.toNat) with
      dcLvl := true, frameOpen := false, runCnt := 0, transport := s.transport.after (2 * n.toNat + 2) }) ∧
    s.FailsAlong (.sendColorRun c n) (runEvents c n.toNat) ∧
    (runEvents c n.toNat).length = 2 * n.toNat + 3 ∧ unitCount (runEvents c n.toNat) = 2 * n.toNat ∧
    frameCount (runEvents c n.toNat) = 1

/-- The wire rows (R86, R88 to R98) put on the wire by the framing micro-operation of their DC level: the unit's byte, the
level with it, one frame. That a unit run on its own is framed so is the model's choice (log 11). -/
def Obligations.WireUnitsComplete : Prop :=
  ∀ (s : State) (c : Byte), s.Undisturbed →
    (∀ p ∈ [(Instr.swreset, s.cfg.codes.swreset), (.slpout, s.cfg.codes.slpout), (.noron, s.cfg.codes.noron),
        (.invon, s.cfg.codes.invon), (.dispon, s.cfg.codes.dispon), (.caset, s.cfg.codes.caset),
        (.raset, s.cfg.codes.raset), (.ramwr, s.cfg.codes.ramwr), (.madctl, s.cfg.codes.madctl),
        (.colmod, s.cfg.codes.colmod), (.tuningCommand c, c)],
      exec p.1 s = .next { s.emitted [.pin .dc false, .frameBegin, .byte p.2, .frameEnd] with
        dcLvl := false, frameOpen := false, transport := s.transport.after 3 } ∧
      wireFrom s.dcLvl [.pin .dc false, .frameBegin, .byte p.2, .frameEnd] = [(false, p.2)]) ∧
    exec (.wireData c) s = .next { s.emitted [.pin .dc true, .frameBegin, .byte c, .frameEnd] with
      dcLvl := true, frameOpen := false, transport := s.transport.after 3 } ∧
    wireFrom s.dcLvl [.pin .dc true, .frameBegin, .byte c, .frameEnd] = [(true, c)]

/-- R117: the framing discipline of every trace the block emits through its own ports, resumed operations, aborts, resets and
the SETUP after an abort among them: every step keeps it, for the trace and for what is pending. And the events of one
instruction, a bench unit too, keep it when they start outside a frame, those of SETUP from inside one as well. -/
def Obligations.FramingDisciplineKept : Prop :=
  (∀ s t : State, s.Framed → step s = .next t → t.Framed) ∧
  ∀ (i : Instr) (s t : State), s.frameOpen = false ∨ i = .setup → exec i s = .next t →
    ∃ evs, t.trace = s.trace ++ evs ∧ wellFramed (if s.frameOpen then .opened else .closed) evs = true

/-- R215: at most one TFail in what an instruction, or a step, emits, and nothing after it. -/
def Obligations.FailureIsTheLastEvent : Prop :=
  (∀ (i : Instr) (s t : State), exec i s = .next t → ∃ evs, t.trace = s.trace ++ evs ∧ failureLast evs = true) ∧
  ∀ s t : State, step s = .next t → ∃ evs, t.trace = s.trace ++ evs ∧ failureLast evs = true

/-! ## Initialisation -/

/-- R136: REG_WRITE; and wherever a call of it fails. -/
def Obligations.RegWriteCompletes : Prop :=
  ∀ (s : State) (e : RomEntry),
    (s.Undisturbed → exec (.regWrite e) s = .next { s.emitted (regWriteEvents e) with
      dcLvl := !e.data.isEmpty, frameOpen := false, transport := s.transport.after (3 * (1 + e.data.length)) }) ∧
    s.FailsAlong (.regWrite e) (regWriteEvents e)

/-- A ROM record (R99) run by the register-write state machine: REG_WRITE, then ROM_IDX advances (R137, R141). That it
stops at ROM_ENTRIES is the model's reading (log 12). -/
def Obligations.RomRecordCompletes : Prop :=
  ∀ (s : State) (e : RomEntry), s.Undisturbed →
    exec (.romEntry e) s = .next { s.emitted (regWriteEvents e) with
      dcLvl := !e.data.isEmpty, frameOpen := false, romIdx := min (s.romIdx + 1) s.cfg.romEntries,
      transport := s.transport.after (3 * (1 + e.data.length)) }

/-- R137: RUN_INIT runs the whole ROM once, in order, and leaves ROM_IDX at ROM_ENTRIES; wherever a call fails it ends
there, ROM_IDX at the failing entry. -/
def Obligations.RunInitCompletes : Prop :=
  ∀ (s : State) (rom : List RomEntry), initRom s.cfg = some rom →
    (s.Undisturbed → exec .runInit s = .next { s.emitted (romEvents rom) with
      dcLvl := dcAfterRom s.dcLvl rom, frameOpen := false, romIdx := s.cfg.romEntries,
      transport := s.transport.after (romCalls rom) }) ∧
    s.FailsAlong .runInit (romEvents rom) ∧
    ∀ (j m : Nat) (e : RomEntry) (later : List Answer), rom[j]? = some e → m < entryCalls e →
      s.Answers (romCalls (rom.take j) + m) .fail later → ∃ t, exec .runInit s = .next t ∧ t.romIdx = j

/-- R139: the events RUN_INIT appends, its wire units, frames and waits; and the same for the reference composition. -/
def Obligations.RunInitCounts : Prop :=
  ∀ (s : State) (rom : List RomEntry), s.Undisturbed → initRom s.cfg = some rom →
    s.Costs .runInit (rom.map fun e => 4 * (1 + e.data.length) + if e.delay.isSome then 1 else 0).sum
      (rom.map fun e => 1 + e.data.length).sum (rom.map fun e => 1 + e.data.length).sum
      (rom.map fun e => if e.delay.isSome then 1 else 0).sum ∧
    ∀ (codes : CmdCodes) (swapRb : Bool) (t : SettleTimes) (tuning : List RomEntry),
      rom = referenceRom codes swapRb t tuning →
      s.Costs .runInit (41 + (tuning.map fun e => 4 * (1 + e.data.length) + if e.delay.isSome then 1 else 0).sum)
        (9 + (tuning.map fun e => 1 + e.data.length).sum) (9 + (tuning.map fun e => 1 + e.data.length).sum)
        (5 + (tuning.map fun e => if e.delay.isSome then 1 else 0).sum)

/-- R138: HW_RESET_PULSE: the panel is reset by it; with `HAS_RST` = 0 no pulse is made. -/
def Obligations.ResetPulseCompletes : Prop :=
  ∀ s : State, s.pauses = [] →
    (s.cfg.hasRst = true →
      exec .hwResetPulse s = .next { s.emitted [.pin .rst false, .wait .rstLow s.cfg.tRstLow, .pin .rst true,
        .wait .rstRecover s.cfg.tRstRecover] with rstLvl := true } ∧
      (s.observed [.pin .rst false, .wait .rstLow s.cfg.tRstLow, .pin .rst true, .wait .rstRecover s.cfg.tRstRecover])
        = ⟨Panel.initial, s.ghost.faults⟩) ∧
    (s.cfg.hasRst = false → exec .hwResetPulse s = .next s)

/-- R191: SETUP, from any state in which the block is ready for an operation; and wherever a call of it fails. -/
def Obligations.SetupCompletes : Prop :=
  ∀ (s : State) (rom : List RomEntry), s.accepts = true → initRom s.cfg = some rom →
    (s.Undisturbed → ∃ l : Latches, l.opc = 0x1 ∧ exec .setup s = .next { s.emitted (setupEvents s.cfg rom) with
      latches := l, ready := true, errTransport := false, errIllegalOp := false,
      warnNotReady := false, frameOpen := false, romIdx := s.cfg.romEntries, dcCfg := true,
      dcLvl := dcAfterRom false rom, rstCfg := s.rstCfg || s.cfg.hasRst, rstLvl := s.rstLvl || s.cfg.hasRst,
      blCfg := s.blCfg || s.cfg.hasBl, blLvl := s.blLvl || s.cfg.hasBl, opDone := true, opStatus := 0x0,
      transport := s.transport.after (1 + romCalls rom) }) ∧
    s.FailsAlong .setup (setupEvents s.cfg rom)

/-- R245, R168: after a SETUP of an instance with a reset pin, whose ROM leaves a good panel, the panel is ready for pixels
and no ghost fault has been added, whatever the panel held before. -/
def Obligations.SetupMakesThePanelReady : Prop :=
  ∀ (s : State) (rom : List RomEntry), s.accepts = true → s.Undisturbed → initRom s.cfg = some rom →
    RomQuiet s.cfg.codes rom → s.cfg.hasRst = true →
    ∃ t, exec .setup s = .next t ∧ t.ready = true ∧ t.ghost.panel.PixelReady ∧ t.ghost.faults = s.ghost.faults

/-! ## Window and pixels -/

/-- R161: SET_ADDRESS_WINDOW, operands unchecked (R162); wherever a call of it fails; and its panel effect. -/
def Obligations.SetAddressWindowCompletes : Prop :=
  ∀ (s : State) (x₁ y₁ x₂ y₂ : Half),
    (s.Undisturbed → exec (.setAddressWindow x₁ y₁ x₂ y₂) s = .next {
      s.emitted (windowEvents s.cfg.codes x₁ y₁ x₂ y₂) with
      dcLvl := false, frameOpen := false, transport := s.transport.after 25 }) ∧
    s.FailsAlong (.setAddressWindow x₁ y₁ x₂ y₂) (windowEvents s.cfg.codes x₁ y₁ x₂ y₂) ∧
    (windowEvents s.cfg.codes x₁ y₁ x₂ y₂).length = 32 ∧ frameCount (windowEvents s.cfg.codes x₁ y₁ x₂ y₂) = 7 ∧
    wire (windowEvents s.cfg.codes x₁ y₁ x₂ y₂) =
      [(false, s.cfg.codes.caset), (true, x₁.extractLsb' 8 8), (true, x₁.extractLsb' 0 8), (true, x₂.extractLsb' 8 8),
        (true, x₂.extractLsb' 0 8), (false, s.cfg.codes.raset), (true, y₁.extractLsb' 8 8), (true, y₁.extractLsb' 0 8),
        (true, y₂.extractLsb' 8 8), (true, y₂.extractLsb' 0 8), (false, s.cfg.codes.ramwr)] ∧
    (s.cfg.codes.Distinct → s.ghost.panel.status = .live → s.ghost.panel.rstHeld = false →
      (s.observed (windowEvents s.cfg.codes x₁ y₁ x₂ y₂)).panel.colWin = some (x₁, x₂) ∧
      (s.observed (windowEvents s.cfg.codes x₁ y₁ x₂ y₂)).panel.rowWin = some (y₁, y₂) ∧
      (s.observed (windowEvents s.cfg.codes x₁ y₁ x₂ y₂)).panel.cur
        = if x₁ ≤ x₂ ∧ x₂ ≤ 239 ∧ y₁ ≤ y₂ ∧ y₂ ≤ 239 then .cell x₁.toNat y₁.toNat else .unset)

/-- R164, R160: PIXEL: when not ready or outside the panel nothing but completion with OK; ready and inside, the 1x1 window
and one unit; and wherever a call of it fails. (The operand latches take its fields at acceptance, R21, R107; what a no-op
leaves in them is not stated, log 9.) -/
def Obligations.PixelWritesItsUnit : Prop :=
  ∀ (s : State) (x y : Half) (r g b : Byte), s.accepts = true →
    (s.pauses = [] → s.ready = false ∨ x.toInt < 0 ∨ 240 ≤ x.toInt ∨ y.toInt < 0 ∨ 240 ≤ y.toInt →
      ∃ l : Latches, exec (.pixel x y r g b) s = .next { s with latches := l, opDone := true, opStatus := 0x0 }) ∧
    (s.ready = true → 0 ≤ x.toInt ∧ x.toInt ≤ 239 ∧ 0 ≤ y.toInt ∧ y.toInt ≤ 239 →
      (s.Undisturbed → exec (.pixel x y r g b) s = .next {
        s.emitted (windowEvents s.cfg.codes x y x y ++ runEvents (toNative s.cfg.swapRb r g b) 1) with
        latches := ⟨0x5, x, y, r, g, b⟩, cvNative := toNative s.cfg.swapRb r g b,
        nativeLatch := toNative s.cfg.swapRb r g b, dcLvl := true, frameOpen := false, runCnt := 0, opDone := true,
        opStatus := 0x0, transport := s.transport.after 29 }) ∧
      s.FailsAlong (.pixel x y r g b) (windowEvents s.cfg.codes x y x y ++ runEvents (toNative s.cfg.swapRb r g b) 1))

/-- R165: FILL: when not ready nothing but completion with OK; ready, the full-panel window, one conversion, one run of
57600 units in one frame; and wherever a call of it fails. (What a no-op leaves in the operand latches is not stated,
log 9.) -/
def Obligations.FillWritesOneRun : Prop :=
  ∀ (s : State) (r g b : Byte), s.accepts = true →
    (s.pauses = [] → s.ready = false → ∃ l : Latches,
      exec (.fill r g b) s = .next { s with latches := l, opDone := true, opStatus := 0x0 }) ∧
    (s.ready = true →
      (s.Undisturbed → ∃ l : Latches, l.opc = 0x4 ∧ l.cr = r ∧ l.cg = g ∧ l.cb = b ∧ exec (.fill r g b) s = .next {
        s.emitted (windowEvents s.cfg.codes 0 0 239 239 ++ runEvents (toNative s.cfg.swapRb r g b) 57600) with
        latches := l, cvNative := toNative s.cfg.swapRb r g b,
        nativeLatch := toNative s.cfg.swapRb r g b, dcLvl := true, frameOpen := false, runCnt := 0, opDone := true,
        opStatus := 0x0, transport := s.transport.after 115227 }) ∧
      s.FailsAlong (.fill r g b)
        (windowEvents s.cfg.codes 0 0 239 239 ++ runEvents (toNative s.cfg.swapRb r g b) 57600))

/-- R256: what each host operation costs, in events it appends to the trace, wire units, frames and waits. -/
def Obligations.EventCosts : Prop :=
  ∀ (s : State) (rom : List RomEntry) (x y : Half) (r g b : Byte) (u : BitVec 60) (v : BitVec 63), s.accepts = true →
    s.Undisturbed → initRom s.cfg = some rom →
    s.Costs .setup
      (3 + (if s.cfg.hasRst then 6 else 0) + (if s.cfg.hasBl then 2 else 0)
        + (rom.map fun e => 4 * (1 + e.data.length) + if e.delay.isSome then 1 else 0).sum)
      (rom.map fun e => 1 + e.data.length).sum (rom.map fun e => 1 + e.data.length).sum
      ((if s.cfg.hasRst then 2 else 0) + (rom.map fun e => if e.delay.isSome then 1 else 0).sum) ∧
    (∀ t : SettleTimes, rom = referenceRom s.cfg.codes s.cfg.swapRb t [] →
      (s.cfg.hasRst = true → s.cfg.hasBl = true → s.Costs .setup 52 9 9 7) ∧
      (s.cfg.hasRst = false → s.cfg.hasBl = false → s.Costs .setup 44 9 9 5)) ∧
    (s.ready = true → inPanel x y = true → s.Costs (.pixel x y r g b) 37 13 8 0) ∧
    (s.ready = true → s.Costs (.fill r g b) 115235 115211 8 0) ∧
    (s.ready = false ∨ inPanel x y = false → s.Costs (.pixel x y r g b) 0 0 0 0) ∧
    (s.ready = false → s.Costs (.fill r g b) 0 0 0 0) ∧
    s.Costs .update (if s.ready then 0 else 1) 0 0 0 ∧ s.Costs .dumpConfig 1 0 0 0 ∧
    ∀ i ∈ [Instr.convert r g b, .illegalOpc0 u, .illegalOpc7 u, .illegalOpc8F v], s.Costs i 0 0 0 0

/-- R168 for PIXEL: its cell holds the native colour, every other cell and every other byte of display memory is as it
was, the cursor is DONE, no ghost fault is added, and the panel is ready for the next. -/
def Obligations.PixelEndState : Prop :=
  ∀ (s : State) (x y : Half) (r g b : Byte), s.accepts = true → s.Undisturbed → s.ready = true →
    s.cfg.codes.Distinct → s.ghost.panel.PixelReady → inPanel x y = true →
    ∃ t, exec (.pixel x y r g b) s = .next t ∧
      t.ghost.gramAt x.toNat y.toNat = some (toNative s.cfg.swapRb r g b) ∧
      (∀ x' y', x' < 240 → y' < 240 → (x', y') ≠ (x.toNat, y.toNat) → t.ghost.gramAt x' y' = s.ghost.gramAt x' y') ∧
      (∀ a, a ≠ cellAddr x.toNat y.toNat → a ≠ cellAddr x.toNat y.toNat + 1 →
        t.ghost.panel.gram.readByte a = s.ghost.panel.gram.readByte a) ∧
      t.ghost.panel.cur = .done ∧ t.ghost.faults = s.ghost.faults ∧ t.ghost.panel.PixelReady

/-- R168 for FILL: all 57600 cells hold the native colour. -/
def Obligations.FillEndState : Prop :=
  ∀ (s : State) (r g b : Byte), s.accepts = true → s.Undisturbed → s.ready = true → s.cfg.codes.Distinct →
    s.ghost.panel.PixelReady →
    ∃ t, exec (.fill r g b) s = .next t ∧
      (∀ x y, x < 240 → y < 240 → t.ghost.gramAt x y = some (toNative s.cfg.swapRb r g b)) ∧
      (∀ a, 115200 ≤ a → t.ghost.panel.gram.readByte a = s.ghost.panel.gram.readByte a) ∧
      t.ghost.panel.cur = .done ∧ t.ghost.faults = s.ghost.faults ∧ t.ghost.panel.PixelReady

/-- R166: the pixel-count law, for every valid window and every run length. -/
def Obligations.PixelCountLaw : Prop :=
  ∀ (s : State) (x₁ y₁ x₂ y₂ c : Half) (n : BitVec 32), s.Undisturbed → s.cfg.codes.Distinct →
    s.ghost.panel.PixelReady → windowValid (x₁, x₂) (y₁, y₂) = true →
    ∃ s' t, exec (.setAddressWindow x₁ y₁ x₂ y₂) s = .next s' ∧ exec (.sendColorRun c n) s' = .next t ∧
      (∀ x y, inWindow x₁.toNat y₁.toNat x₂.toNat y₂.toNat x y →
        t.ghost.gramAt x y =
          if scanIndex x₁.toNat y₁.toNat (x₂.toNat - x₁.toNat + 1) x y < n.toNat then some c
          else s.ghost.gramAt x y) ∧
      (∀ x y, x < 240 → y < 240 → ¬ inWindow x₁.toNat y₁.toNat x₂.toNat y₂.toNat x y →
        t.ghost.gramAt x y = s.ghost.gramAt x y) ∧
      ((x₂.toNat - x₁.toNat + 1) * (y₂.toNat - y₁.toNat + 1) ≤ n.toNat → t.ghost.panel.cur = .done) ∧
      (n.toNat < (x₂.toNat - x₁.toNat + 1) * (y₂.toNat - y₁.toNat + 1) →
        ∃ x y, t.ghost.panel.cur = .cell x y ∧ inWindow x₁.toNat y₁.toNat x₂.toNat y₂.toNat x y ∧
          scanIndex x₁.toNat y₁.toNat (x₂.toNat - x₁.toNat + 1) x y = n.toNat) ∧
      (n.toNat ≤ (x₂.toNat - x₁.toNat + 1) * (y₂.toNat - y₁.toNat + 1) → t.ghost.faults = s.ghost.faults) ∧
      ((x₂.toNat - x₁.toNat + 1) * (y₂.toNat - y₁.toNat + 1) < n.toNat → .windowOverrun ∈ t.ghost.faults)

/-! ## Lifecycle -/

/-- R192: UPDATE. -/
def Obligations.UpdateReports : Prop :=
  ∀ s : State, s.accepts = true → s.pauses = [] →
    (s.ready = false → ∃ l : Latches, l.opc = 0x2 ∧ exec .update s = .next { s with
      trace := s.trace ++ [.warn .notReady], warnNotReady := true, latches := l, opDone := true, opStatus := 0x1 }) ∧
    (s.ready = true → ∃ l : Latches, l.opc = 0x2 ∧ exec .update s = .next { s with
      latches := l, opDone := true, opStatus := 0x0 })

/-- R193: DUMP_CONFIG reports the registers 0x0 to 0x7, BUSY reading 1, and changes no state. -/
def Obligations.DumpConfigReports : Prop :=
  ∀ s : State, s.accepts = true → s.pauses = [] →
    ∃ l : Latches, l.opc = 0x3 ∧ exec .dumpConfig s = .next { s with
      trace := s.trace ++ [.report [0x00F0, 0x00F0, 0x0001, s.regValue 0x3 ||| 0x0010, s.regValue 0x4, s.regValue 0x5,
        s.nativeResult, s.regValue 0x7]],
      latches := l, opDone := true, opStatus := 0x0 }

/-- R214: the three illegal rows. -/
def Obligations.IllegalOpcodesRejected : Prop :=
  ∀ (s : State) (u : BitVec 60) (v : BitVec 63), s.accepts = true → s.pauses = [] →
    ∀ i ∈ [Instr.illegalOpc0 u, .illegalOpc7 u, .illegalOpc8F v],
      exec i s = .next { s with errIllegalOp := true, opDone := true, opStatus := 0x3 }

/-! ## The panel observation -/

/-- R57, R58: a byte to a CORRUPT panel is ignored; one to a panel held in reset is ignored and recorded as
BYTE_DURING_RESET; a command byte to any other panel is interpreted, a settle time not yet passed and a half pixel being
recorded. -/
def Obligations.CommandByteObserved : Prop :=
  ∀ (codes : CmdCodes) (g : Ghost) (b : Byte), codes.Distinct →
    (g.panel.status = .corrupt → ∀ dc, g.byte codes dc b = g) ∧
    (g.panel.status = .live → g.panel.rstHeld = true → ∀ dc, (g.byte codes dc b).panel = g.panel ∧
      ∀ f, f ∈ (g.byte codes dc b).faults ↔ f ∈ g.faults ∨ f = .byteDuringReset) ∧
    (g.panel.status = .live → g.panel.rstHeld = false →
      (g.byte codes false b).panel.cmd = some b ∧ (g.byte codes false b).panel.args = [] ∧
      (g.byte codes false b).panel.pend = none ∧ (g.byte codes false b).panel.status = .live ∧
      (g.byte codes false b).panel.rstHeld = false ∧
      (g.byte codes false b).panel.settle
        = (if b = codes.swreset ∨ b = codes.slpout ∨ b = codes.dispon then 120
           else if b = codes.invon ∨ b = codes.noron then 10 else 0) ∧
      (b = codes.swreset → (g.byte codes false b).panel.gram = [] ∧ (g.byte codes false b).panel.regs = [] ∧
        (g.byte codes false b).panel.colWin = none ∧ (g.byte codes false b).panel.rowWin = none ∧
        (g.byte codes false b).panel.colFresh = false ∧ (g.byte codes false b).panel.rowFresh = false ∧
        (g.byte codes false b).panel.colmod = none ∧ (g.byte codes false b).panel.cur = .unset) ∧
      (b ≠ codes.swreset → (g.byte codes false b).panel.gram = g.panel.gram ∧
        (g.byte codes false b).panel.regs = g.panel.regs ∧ (g.byte codes false b).panel.colWin = g.panel.colWin ∧
        (g.byte codes false b).panel.rowWin = g.panel.rowWin ∧ (g.byte codes false b).panel.colmod = g.panel.colmod) ∧
      (b ≠ codes.swreset → b ≠ codes.ramwr → (g.byte codes false b).panel.cur = g.panel.cur ∧
        (g.byte codes false b).panel.colFresh = g.panel.colFresh ∧
        (g.byte codes false b).panel.rowFresh = g.panel.rowFresh) ∧
      (b ≠ codes.ramwr → ∀ f, f ∈ (g.byte codes false b).faults ↔
        f ∈ g.faults ∨ (f = .settleViolation ∧ 0 < g.panel.settle) ∨ (f = .oddPixelByte ∧ g.panel.pend.isSome = true)) ∧
      (.settleViolation ∈ (g.byte codes false b).faults ↔ .settleViolation ∈ g.faults ∨ 0 < g.panel.settle) ∧
      (.oddPixelByte ∈ (g.byte codes false b).faults ↔ .oddPixelByte ∈ g.faults ∨ g.panel.pend.isSome = true))

/-- R60: RAMWR opens a stream at the window's first cell, or records why it cannot; the faults it adds, all of them. -/
def Obligations.MemoryWriteOpensTheWindow : Prop :=
  ∀ (codes : CmdCodes) (g : Ghost), codes.Distinct → g.panel.status = .live → g.panel.rstHeld = false →
    (g.byte codes false codes.ramwr).panel.colFresh = false ∧ (g.byte codes false codes.ramwr).panel.rowFresh = false ∧
    (.staleWindow ∈ (g.byte codes false codes.ramwr).faults ↔
      .staleWindow ∈ g.faults ∨ ¬ (g.panel.colFresh = true ∧ g.panel.rowFresh = true)) ∧
    (.windowUnset ∈ (g.byte codes false codes.ramwr).faults ↔
      .windowUnset ∈ g.faults ∨ g.panel.colWin = none ∨ g.panel.rowWin = none) ∧
    (g.panel.colWin = none ∨ g.panel.rowWin = none → (g.byte codes false codes.ramwr).panel.cur = .unset) ∧
    (∀ f, f ∈ (g.byte codes false codes.ramwr).faults ↔
      f ∈ g.faults ∨ (f = .settleViolation ∧ 0 < g.panel.settle) ∨ (f = .oddPixelByte ∧ g.panel.pend.isSome = true) ∨
      (f = .staleWindow ∧ ¬ (g.panel.colFresh = true ∧ g.panel.rowFresh = true)) ∨
      (f = .windowUnset ∧ (g.panel.colWin = none ∨ g.panel.rowWin = none)) ∨
      (f = .windowInvalid ∧ ∃ x₁ x₂ y₁ y₂ : Half, g.panel.colWin = some (x₁, x₂) ∧ g.panel.rowWin = some (y₁, y₂) ∧
        ¬ (x₁ ≤ x₂ ∧ x₂ ≤ 239 ∧ y₁ ≤ y₂ ∧ y₂ ≤ 239))) ∧
    ∀ x₁ x₂ y₁ y₂ : Half, g.panel.colWin = some (x₁, x₂) → g.panel.rowWin = some (y₁, y₂) →
      (g.byte codes false codes.ramwr).panel.cur
        = (if x₁ ≤ x₂ ∧ x₂ ≤ 239 ∧ y₁ ≤ y₂ ∧ y₂ ≤ 239 then .cell x₁.toNat y₁.toNat else .unset) ∧
      (.windowInvalid ∈ (g.byte codes false codes.ramwr).faults ↔
        .windowInvalid ∈ g.faults ∨ ¬ (x₁ ≤ x₂ ∧ x₂ ≤ 239 ∧ y₁ ≤ y₂ ∧ y₂ ≤ 239))

/-- R57, R59: data bytes outside a pixel stream: without a command; the parameters of CASET, RASET and COLMOD, high byte
first, and EXTRA_PARAM for more; any other command's, which are recorded and do nothing else. One that comes before the
settle time has passed is recorded as SETTLE_VIOLATION and interpreted all the same. -/
def Obligations.ParametersObserved : Prop :=
  ∀ (codes : CmdCodes) (g : Ghost) (b₁ b₂ b₃ b₄ b₅ : Byte), codes.Distinct → g.panel.status = .live →
    g.panel.rstHeld = false →
    let early := fun f : GhostFault => f ∈ g.faults ∨ (f = .settleViolation ∧ 0 < g.panel.settle)
    (g.panel.cmd = none → (g.byte codes true b₁).panel = g.panel ∧
      ∀ f, f ∈ (g.byte codes true b₁).faults ↔ early f ∨ f = .dataWithoutCommand) ∧
    (∀ c, g.panel.cmd = some c → c ∉ [codes.ramwr, codes.caset, codes.raset, codes.colmod] →
      (g.byte codes true b₁).panel = { g.panel with
        args := g.panel.args ++ [b₁], regs := Table.put c.toNat (g.panel.args ++ [b₁]) g.panel.regs } ∧
      (∀ f, f ∈ (g.byte codes true b₁).faults ↔ early f) ∧
      (g.panel.settle = 0 → (g.byte codes true b₁).faults = g.faults)) ∧
    (g.panel.cmd = some codes.caset → g.panel.args = [] →
      let g' := Ghost.observeAll codes true [.byte b₁, .byte b₂, .byte b₃, .byte b₄] g
      (Ghost.observeAll codes true [.byte b₁, .byte b₂, .byte b₃] g).panel.colWin = g.panel.colWin ∧
      g'.panel.colWin = some (b₁ ++ b₂, b₃ ++ b₄) ∧ g'.panel.colFresh = true ∧ g'.panel.rowWin = g.panel.rowWin ∧
      Table.get codes.caset.toNat g'.panel.regs = some [b₁, b₂, b₃, b₄] ∧ (∀ f, f ∈ g'.faults ↔ early f) ∧
      (g.panel.settle = 0 → g'.faults = g.faults) ∧
      ∀ f, f ∈ (g'.byte codes true b₅).faults ↔ early f ∨ f = .extraParam) ∧
    (g.panel.cmd = some codes.raset → g.panel.args = [] →
      let g' := Ghost.observeAll codes true [.byte b₁, .byte b₂, .byte b₃, .byte b₄] g
      (Ghost.observeAll codes true [.byte b₁, .byte b₂, .byte b₃] g).panel.rowWin = g.panel.rowWin ∧
      g'.panel.rowWin = some (b₁ ++ b₂, b₃ ++ b₄) ∧ g'.panel.rowFresh = true ∧ g'.panel.colWin = g.panel.colWin ∧
      Table.get codes.raset.toNat g'.panel.regs = some [b₁, b₂, b₃, b₄] ∧ (∀ f, f ∈ g'.faults ↔ early f) ∧
      (g.panel.settle = 0 → g'.faults = g.faults) ∧
      ∀ f, f ∈ (g'.byte codes true b₅).faults ↔ early f ∨ f = .extraParam) ∧
    (g.panel.cmd = some codes.colmod → g.panel.args = [] →
      (g.byte codes true b₁).panel.colmod = some b₁ ∧ (∀ f, f ∈ (g.byte codes true b₁).faults ↔ early f) ∧
      (g.panel.settle = 0 → (g.byte codes true b₁).faults = g.faults) ∧
      ((g.byte codes true b₁).byte codes true b₂).panel.colmod = some b₁ ∧
      ∀ f, f ∈ ((g.byte codes true b₁).byte codes true b₂).faults ↔ early f ∨ f = .extraParam)

/-- R61 to R63, R66: a data unit after RAMWR. A first byte is kept, and does nothing else; a second completes a pixel: at a
cell it is stored there and the cursor advances in row-major order, at DONE it records WINDOW_OVERRUN, at NONE it does
nothing; a byte before the settle time has passed is recorded and interpreted all the same. In any panel no byte of display
memory changes but the two of the cell a pixel is stored to. Two bytes do the same in two frames as in one. -/
def Obligations.DataUnitMemoryFrame : Prop :=
  (∀ (s : State) (d : Byte), s.Undisturbed → ∀ i ∈ [Instr.sendData d, .wireData d],
    ∃ t, exec i s = .next t ∧
      (s.ghost.storeTarget s.cfg.codes = none →
        ∀ a, t.ghost.panel.gram.readByte a = s.ghost.panel.gram.readByte a) ∧
      (∀ x y, s.ghost.storeTarget s.cfg.codes = some (x, y) →
        (∀ a, a ≠ cellAddr x y → a ≠ cellAddr x y + 1 →
          t.ghost.panel.gram.readByte a = s.ghost.panel.gram.readByte a) ∧
        ∀ h, s.ghost.panel.pend = some h →
          t.ghost.gramAt x y = if s.ghost.panel.colmod = some 0x55 then some (h ++ d) else none) ∧
      (s.ghost.panel.status = .live → s.ghost.panel.rstHeld = false → s.ghost.panel.cmd = some s.cfg.codes.ramwr →
        (∀ f, f ∈ t.ghost.faults ↔ f ∈ s.ghost.faults ∨ (f = .settleViolation ∧ 0 < s.ghost.panel.settle) ∨
          (f = .windowOverrun ∧ s.ghost.panel.pend.isSome = true ∧ s.ghost.panel.cur = .done)) ∧
        (s.ghost.panel.pend = none → t.ghost.panel = { s.ghost.panel with pend := some d }) ∧
        (s.ghost.panel.pend.isSome = true → s.ghost.panel.cur = .unset ∨ s.ghost.panel.cur = .done →
          t.ghost.panel = { s.ghost.panel with pend := none }) ∧
        ∀ (x y : Nat) (x₁ x₂ y₁ y₂ : Half), s.ghost.panel.pend.isSome = true → s.ghost.panel.cur = .cell x y →
          s.ghost.panel.colWin = some (x₁, x₂) → s.ghost.panel.rowWin = some (y₁, y₂) →
          t.ghost.panel = { s.ghost.panel with
            pend := none
            gram := t.ghost.panel.gram
            cur := if x < x₂.toNat then .cell (x + 1) y
              else if y < y₂.toNat then .cell x₁.toNat (y + 1)
              else .done })) ∧
  ∀ (s : State) (h d : Byte), s.Undisturbed →
    ∃ t t₁ t₂, exec (.sendData16 (h ++ d)) s = .next t ∧ exec (.sendData h) s = .next t₁ ∧
      exec (.sendData d) t₁ = .next t₂ ∧ t.ghost = t₂.ghost

/-- The memory frame of what sends several units (R56, R58, R61 to R63): outside the cells its units complete after the last
reset of the panel among its events, every byte of display memory is unknown when there was a reset, and as it was when
there was none. -/
def Obligations.StreamMemoryFrame : Prop :=
  ∀ (s : State) (w c x y : Half) (n : BitVec 32) (e : RomEntry) (rom : List RomEntry) (r g b : Byte), s.Undisturbed →
    initRom s.cfg = some rom →
    ∀ p ∈ [(Instr.sendData16 w, data16Events w), (.sendColorRun c n, runEvents c n.toNat),
        (.regWrite e, regWriteEvents e), (.romEntry e, regWriteEvents e), (.runInit, romEvents rom)]
        ++ (if s.accepts then [(.setup, setupEvents s.cfg rom)] else [])
        ++ (if s.accepts && s.ready then [(.fill r g b, operationEvents s.cfg rom (.fill r g b)),
          (.pixel x y r g b, operationEvents s.cfg rom (.pixel x y r g b))] else []),
      ∃ t, exec p.1 s = .next t ∧
        ∀ a, (∀ xy ∈ s.ghost.storedCells s.cfg.codes s.dcLvl p.2,
            a ≠ cellAddr xy.1 xy.2 ∧ a ≠ cellAddr xy.1 xy.2 + 1) →
          t.ghost.panel.gram.readByte a
            = if s.ghost.resetIn s.cfg.codes s.dcLvl p.2 then none else s.ghost.panel.gram.readByte a

/-- The memory frame of the command units, of SET_ADDRESS_WINDOW and of an entry that is no RAMWR or SWRESET: no byte of
display memory changes; SWRESET, and the reset pulse, make all of it unknown (R58, R56). -/
def Obligations.CommandMemoryFrame : Prop :=
  ∀ (s : State) (b : Byte) (e : RomEntry) (x₁ y₁ x₂ y₂ : Half), s.Undisturbed → s.cfg.codes.Distinct →
    b ≠ s.cfg.codes.swreset → e.cmd ≠ s.cfg.codes.swreset → e.cmd ≠ s.cfg.codes.ramwr →
    (∀ i ∈ [Instr.sendCommand b, .tuningCommand b, .slpout, .noron, .invon, .dispon, .caset, .raset, .ramwr, .madctl,
        .colmod, .setAddressWindow x₁ y₁ x₂ y₂],
      ∃ t, exec i s = .next t ∧ ∀ a, t.ghost.panel.gram.readByte a = s.ghost.panel.gram.readByte a) ∧
    (∀ i ∈ [Instr.regWrite e, .romEntry e],
      ∃ t, exec i s = .next t ∧ ∀ a, t.ghost.panel.gram.readByte a = s.ghost.panel.gram.readByte a) ∧
    (s.ghost.panel.status = .live → s.ghost.panel.rstHeld = false →
      ∃ t, exec .swreset s = .next t ∧ ∀ a, t.ghost.panel.gram.readByte a = none) ∧
    (s.cfg.hasRst = true → ∃ t, exec .hwResetPulse s = .next t ∧
      t.ghost.panel.status = .live ∧ t.ghost.panel.rstHeld = false ∧ t.ghost.faults = s.ghost.faults ∧
      ∀ a, t.ghost.panel.gram.readByte a = none)

/-- R245, R168, R227's second premise for the reference composition: with a tuning table of commands the observation gives
no meaning to, its trace leaves every panel that takes bytes ready for pixels, with no new ghost fault. -/
def Obligations.ReferenceRomIsQuiet : Prop :=
  ∀ (codes : CmdCodes) (swapRb : Bool) (t : SettleTimes) (tuning : List RomEntry), codes.Distinct →
    120 ≤ t.swreset.toNat → 120 ≤ t.slpout.toNat → 10 ≤ t.invon.toNat → 10 ≤ t.noron.toNat → 120 ≤ t.dispon.toNat →
    (∀ e ∈ tuning, e.cmd ∉ codes.all) → RomQuiet codes (referenceRom codes swapRb t tuning)

/-! ## Whole-machine rules and invariants -/

/-- R227, with R168's condition that nothing is left to settle after the ROM: fault-freedom is kept by every step. -/
def Obligations.StepKeepsFaultFreedom : Prop :=
  ∀ s t : State, s.FaultFree → step s = .next t → t.FaultFree

/-- R60, R63: the observation stays sound: the cursor of a stream inside its window, on all four sides, after every step; and
display memory and parameter table in canonical form, which is the model's representation (log 16). -/
def Obligations.StepKeepsDisplaySound : Prop :=
  ∀ s t : State, s.DisplaySound → step s = .next t → t.DisplaySound

/-- R31: an absent pin stays undriven for ever. -/
def Obligations.StepKeepsAbsentPinsIdle : Prop :=
  ∀ s t : State, s.AbsentPinsIdle → step s = .next t → t.AbsentPinsIdle

/-- R24: what is pending always brings RUN_CNT back to 0, so it is 0 whenever nothing is pending. -/
def Obligations.StepKeepsRunBalanced : Prop :=
  ∀ s t : State, s.RunBalanced → step s = .next t → t.RunBalanced ∧ (t.work = [] → t.runCnt = 0)

/-- The five invariants hold at power-on reset. -/
def Obligations.ResetMeetsTheInvariants : Prop :=
  State.reset.FaultFree ∧ State.reset.DisplaySound ∧ State.reset.AbsentPinsIdle ∧ State.reset.RunBalanced ∧
    State.reset.Framed

/-- R23: ROM_IDX stays in 0..ROM_ENTRIES. -/
def Obligations.StepKeepsRomIndexInRange : Prop :=
  ∀ s t : State, s.romIdx ≤ s.cfg.romEntries → step s = .next t → t.romIdx ≤ t.cfg.romEntries

/-- R32, R72: no instruction and no step writes the straps, the codes or the ROM. -/
def Obligations.ConfigurationNeverWritten : Prop :=
  (∀ (i : Instr) (s t : State), exec i s = .next t → t.cfg = s.cfg) ∧ (∀ s t : State, step s = .next t → t.cfg = s.cfg)

/-- R219, R9: no step removes a ghost fault, and events are only ever appended to the trace. -/
def Obligations.RecordsOnlyGrow : Prop :=
  ∀ s t : State, step s = .next t → (∀ f, f ∈ s.ghost.faults → f ∈ t.ghost.faults) ∧ ∃ evs, t.trace = s.trace ++ evs

/-- R26 to R30, R45, R195: who writes the flags and NATIVE_RESULT. READY rises only by SETUP and falls only by SETUP, a
transport failure or a reset; a sticky bit is set by its own cause and cleared only by SETUP or a reset; NATIVE_RESULT is
CONVERT's and the reset's. Of one instruction by what it appends to the trace; and of every step, where a write may come
from what is pending, which only the instruction that owns the write put there. -/
def Obligations.FlagsHaveTheirWriters : Prop :=
  (∀ (i : Instr) (s t : State), exec i s = .next t → ∃ evs, t.trace = s.trace ++ evs ∧
    (t.ready = true → s.ready = true ∨ i = .setup) ∧
    (s.ready = true → t.ready = false → i = .setup ∨ ∃ c, .tFail c ∈ evs) ∧
    (t.errTransport = true → s.errTransport = true ∨ ∃ c, .tFail c ∈ evs) ∧
    (t.errIllegalOp = true → s.errIllegalOp = true ∨
      (∃ u, i = .illegalOpc0 u ∨ i = .illegalOpc7 u) ∨ ∃ v, i = .illegalOpc8F v) ∧
    (t.warnNotReady = true → s.warnNotReady = true ∨ (i = .update ∧ s.ready = false)) ∧
    (i ≠ .setup → (s.errTransport = true → t.errTransport = true) ∧ (s.errIllegalOp = true → t.errIllegalOp = true) ∧
      (s.warnNotReady = true → t.warnNotReady = true)) ∧
    ((∀ r g b, i ≠ .convert r g b) → t.nativeResult = s.nativeResult)) ∧
  ∀ s t : State, step s = .next t → ∃ evs, t.trace = s.trace ++ evs ∧
    (t.ready = true → s.ready = true ∨ s.Runs .setup ∨ .setReady true ∈ s.work) ∧
    (s.ready = true → t.ready = false →
      s.Runs .setup ∨ .setReady false ∈ s.work ∨ (∃ c, .tFail c ∈ evs) ∨ t.rstN ≠ s.rstN) ∧
    (t.errTransport = true → s.errTransport = true ∨ ∃ c, .tFail c ∈ evs) ∧
    (t.errIllegalOp = true → s.errIllegalOp = true ∨ s.Rejects ∨ .setIllegalOp ∈ s.work) ∧
    (t.warnNotReady = true → s.warnNotReady = true ∨ (s.Runs .update ∧ s.ready = false) ∨ .setWarn ∈ s.work) ∧
    (s.errTransport = true ∧ t.errTransport = false ∨ s.errIllegalOp = true ∧ t.errIllegalOp = false ∨
        s.warnNotReady = true ∧ t.warnNotReady = false →
      s.Runs .setup ∨ .clearSticky ∈ s.work ∨ t.rstN ≠ s.rstN) ∧
    (t.nativeResult ≠ s.nativeResult →
      (∃ r g b, s.Runs (.convert r g b)) ∨ .storeNative ∈ s.work ∨ t.rstN ≠ s.rstN) ∧
    (∀ v, .setReady v ∈ t.work → .setReady v ∈ s.work ∨ s.Runs .setup) ∧
    (.clearSticky ∈ t.work → .clearSticky ∈ s.work ∨ s.Runs .setup) ∧
    (.setIllegalOp ∈ t.work → .setIllegalOp ∈ s.work ∨ s.Rejects) ∧
    (.setWarn ∈ t.work → .setWarn ∈ s.work ∨ (s.Runs .update ∧ s.ready = false)) ∧
    (.storeNative ∈ t.work → .storeNative ∈ s.work ∨ ∃ r g b, s.Runs (.convert r g b))
end

