-- ==== Sys2Proof/Laws/Bits.lean ====
section
/-! SUPPORT. Bit fields as numbers: concatenation and extraction, for `omega`; the two bytes of a 16-bit value. -/

namespace Sys2Proof

/-- Concatenation is a shift and a sum. -/
theorem toNat_append_eq {m n : Nat} (x : BitVec m) (y : BitVec n) : (x ++ y).toNat = x.toNat * 2 ^ n + y.toNat := by
  rw [BitVec.toNat_append, ← Nat.shiftLeft_add_eq_or_of_lt y.isLt, Nat.shiftLeft_eq]

/-- Extraction is a division and a remainder. -/
theorem toNat_extract_eq {m : Nat} (k n : Nat) (x : BitVec m) : (x.extractLsb' k n).toNat = x.toNat / 2 ^ k % 2 ^ n := by
  rw [BitVec.extractLsb'_toNat, Nat.shiftRight_eq_div_pow]

theorem toNat_joinBytes (h l : Byte) : (joinBytes h l).toNat = h.toNat * 256 + l.toNat := toNat_append_eq h l

theorem toNat_hiByte (w : Half) : (hiByte w).toNat = w.toNat / 256 := by
  rw [hiByte, toNat_extract_eq]; omega

theorem toNat_loByte (w : Half) : (loByte w).toNat = w.toNat % 256 := by
  rw [loByte, toNat_extract_eq]; omega

@[simp] theorem joinBytes_hiByte_loByte (w : Half) : joinBytes (hiByte w) (loByte w) = w := by
  apply BitVec.eq_of_toNat_eq; rw [toNat_joinBytes, toNat_hiByte, toNat_loByte]; omega

@[simp] theorem hiByte_joinBytes (h l : Byte) : hiByte (joinBytes h l) = h := by
  apply BitVec.eq_of_toNat_eq; rw [toNat_hiByte, toNat_joinBytes]; omega

@[simp] theorem loByte_joinBytes (h l : Byte) : loByte (joinBytes h l) = l := by
  apply BitVec.eq_of_toNat_eq; rw [toNat_loByte, toNat_joinBytes]; omega

/-! ### The encodings as numbers -/

theorem toNat_descriptorOf (opc : BitVec 4) (x y : Half) (r g b : Byte) :
    (descriptorOf opc x y r g b).toNat = opc.toNat * 2 ^ 60 + x.toNat * 2 ^ 40 + y.toNat * 2 ^ 24 + r.toNat * 2 ^ 16
      + g.toNat * 2 ^ 8 + b.toNat := by
  rw [descriptorOf, toNat_append_eq, toNat_append_eq, toNat_append_eq, toNat_append_eq, toNat_append_eq,
    toNat_append_eq, BitVec.toNat_ofNat]
  omega

theorem toNat_commandUnit (b : Byte) : (commandUnit b).toNat = b.toNat := by
  rw [commandUnit, toNat_append_eq, BitVec.toNat_ofNat]; omega

theorem toNat_dataUnit (b : Byte) : (dataUnit b).toNat = 256 + b.toNat := by
  rw [dataUnit, toNat_append_eq, BitVec.toNat_ofNat]; omega

theorem toNat_ctlByte (e : RomEntry) :
    (ctlByte e).toNat = (if e.delay.isSome then 128 else 0) + e.data.length % 16 := by
  rw [ctlByte, toNat_append_eq, toNat_append_eq, BitVec.toNat_ofBool, BitVec.toNat_ofNat, BitVec.toNat_ofNat]
  cases e.delay.isSome <;> simp

end Sys2Proof
end

