-- ==== Sys2Proof/Laws/Memory.lean ====
section
/-! SUPPORT. Tables and display memory: read after write, write leaves the rest alone, every operation keeps the canonical
form. -/

namespace Sys2Proof.Machine

variable {α : Type}

/-! ### Tables -/

theorem Table.get_put_same (k : Nat) (v : α) (t : List (Nat × α)) : Table.get k (Table.put k v t) = some v := by
  induction t with
  | nil => simp [Table.put, Table.get]
  | cons c t ih =>
    simp only [Table.put]
    split
    · simp [Table.get]
    · split
      · simp [Table.get]
      · next h => simp [Table.get, h, ih]

theorem Table.get_put_other {k j : Nat} (h : j ≠ k) (v : α) (t : List (Nat × α)) :
    Table.get j (Table.put k v t) = Table.get j t := by
  induction t with
  | nil => simp [Table.put, Table.get, h]
  | cons c t ih =>
    simp only [Table.put]
    split
    · simp [Table.get, h]
    · split
      · next hk => subst hk; simp [Table.get, h]
      · simp [Table.get, ih]

theorem Table.get_drop_same (k : Nat) (t : List (Nat × α)) : Table.get k (Table.drop k t) = none := by
  induction t with
  | nil => rfl
  | cons c t ih =>
    by_cases h : c.1 = k
    · simpa [Table.drop, h] using ih
    · simpa [Table.drop, h, Table.get, Ne.symm h] using ih

theorem Table.get_drop_other {k j : Nat} (h : j ≠ k) (t : List (Nat × α)) :
    Table.get j (Table.drop k t) = Table.get j t := by
  induction t with
  | nil => rfl
  | cons c t ih =>
    by_cases hc : c.1 = k
    · simpa [Table.drop, hc, Table.get, h] using ih
    · have : Table.get j (Table.drop k t) = Table.get j t := ih
      simp only [Table.drop] at this
      simp [Table.drop, hc, Table.get, this]

theorem Table.mem_put {k : Nat} {v : α} {t : List (Nat × α)} {c : Nat × α} (h : c ∈ Table.put k v t) :
    c = (k, v) ∨ c ∈ t := by
  induction t with
  | nil => simpa [Table.put] using h
  | cons d t ih =>
    simp only [Table.put] at h
    split at h
    · simpa using h
    · split at h
      · rcases List.mem_cons.1 h with h | h
        · exact .inl h
        · exact .inr (List.mem_cons_of_mem _ h)
      · rcases List.mem_cons.1 h with h | h
        · exact .inr (h ▸ List.mem_cons_self)
        · rcases ih h with h | h
          · exact .inl h
          · exact .inr (List.mem_cons_of_mem _ h)

theorem Table.put_wf (k : Nat) (v : α) {t : List (Nat × α)} (h : Table.wf t) : Table.wf (Table.put k v t) := by
  induction t with
  | nil => simp [Table.put]
  | cons c t ih =>
    have ⟨hc, ht⟩ := List.pairwise_cons.1 h
    simp only [Table.put]
    split
    · next hk =>
      refine List.pairwise_cons.2 ⟨fun d hd => ?_, h⟩
      rcases List.mem_cons.1 hd with rfl | hd
      · exact hk
      · exact hk.trans (hc d hd)
    · split
      · next hk => exact List.pairwise_cons.2 ⟨fun d hd => hk ▸ hc d hd, ht⟩
      · refine List.pairwise_cons.2 ⟨fun d hd => ?_, ih ht⟩
        rcases Table.mem_put hd with rfl | hd
        · simp only; omega
        · exact hc d hd

theorem Table.drop_wf (k : Nat) {t : List (Nat × α)} (h : Table.wf t) : Table.wf (Table.drop k t) :=
  List.Pairwise.filter _ h

/-! ### Bytes of display memory -/

@[simp] theorem Memory.readByte_writeByte_same (a : Nat) (v : Option Byte) (m : Memory) :
    (Memory.writeByte a v m).readByte a = v := by
  cases v
  · exact Table.get_drop_same a m
  · exact Table.get_put_same a _ m

theorem Memory.readByte_writeByte_other {a b : Nat} (h : b ≠ a) (v : Option Byte) (m : Memory) :
    (Memory.writeByte a v m).readByte b = m.readByte b := by
  cases v
  · exact Table.get_drop_other h m
  · exact Table.get_put_other h _ m

theorem Memory.writeByte_wf {a : Nat} (ha : a < memorySize) (v : Option Byte) {m : Memory} (h : Memory.wf m) :
    Memory.wf (Memory.writeByte a v m) := by
  cases v with
  | none => exact ⟨Table.drop_wf a h.1, fun c hc => h.2 c (List.mem_of_mem_filter hc)⟩
  | some b =>
    refine ⟨Table.put_wf a b h.1, fun c hc => ?_⟩
    rcases Table.mem_put hc with rfl | hc
    · exact ha
    · exact h.2 c hc

/-! ### Cells -/

theorem cellAddr_lt {x y : Nat} (hx : x < panelSide) (hy : y < panelSide) : cellAddr x y + 1 < memorySize := by
  simp only [cellAddr, memorySize, panelSide] at *; omega

theorem cellAddr_inj {x y x' y' : Nat} (hx : x < panelSide) (hx' : x' < panelSide)
    (h : cellAddr x y = cellAddr x' y') : x = x' ∧ y = y' := by
  simp only [cellAddr, panelSide] at *; omega

theorem Memory.writeCell_wf {x y : Nat} (hx : x < panelSide) (hy : y < panelSide) (v : Option Half) {m : Memory}
    (h : Memory.wf m) : Memory.wf (Memory.writeCell x y v m) :=
  have ha := cellAddr_lt hx hy
  Memory.writeByte_wf ha _ (Memory.writeByte_wf (by omega) _ h)

/-- A cell write touches its two bytes and no other. -/
theorem Memory.readByte_writeCell_other {x y a : Nat} (h₁ : a ≠ cellAddr x y) (h₂ : a ≠ cellAddr x y + 1)
    (v : Option Half) (m : Memory) : (Memory.writeCell x y v m).readByte a = m.readByte a := by
  rw [Memory.writeCell, Memory.readByte_writeByte_other h₂, Memory.readByte_writeByte_other h₁]

@[simp] theorem Memory.readCell_writeCell_same (x y : Nat) (v : Option Half) (m : Memory) :
    (Memory.writeCell x y v m).readCell x y = v := by
  cases v <;>
    simp [Memory.readCell, Memory.writeCell, Memory.readByte_writeByte_other, joinBytes_hiByte_loByte]

theorem Memory.readCell_writeCell_other {x y x' y' : Nat} (hx : x < panelSide) (hx' : x' < panelSide)
    (h : (x', y') ≠ (x, y)) (v : Option Half) (m : Memory) :
    (Memory.writeCell x y v m).readCell x' y' = m.readCell x' y' := by
  have hne : cellAddr x' y' ≠ cellAddr x y := fun he => h (by simp [cellAddr_inj hx' hx he])
  have hodd : cellAddr x' y' ≠ cellAddr x y + 1 ∧ cellAddr x' y' + 1 ≠ cellAddr x y := by
    simp only [cellAddr]; omega
  rw [Memory.readCell, Memory.readCell, Memory.readByte_writeCell_other hne hodd.1,
    Memory.readByte_writeCell_other hodd.2 (by omega)]

@[simp] theorem Memory.readCell_nil (x y : Nat) : Memory.readCell x y [] = none := rfl

end Sys2Proof.Machine
end

