-- ==== Sys2Proof/Laws/Panel.lean ====
section
/-! SUPPORT. The panel observation: GHOST_FAULTS only grows, and every event keeps the observation sound. -/

namespace Sys2Proof.Machine

/-! ### The fault set -/

theorem mem_ghostFaultNames (f : GhostFault) : f ∈ ghostFaultNames := by cases f <;> decide

@[simp] theorem Ghost.mem_addFault (f n : GhostFault) (g : Ghost) :
    n ∈ (g.addFault f).faults ↔ n = f ∨ n ∈ g.faults := by
  simp [Ghost.addFault, mem_ghostFaultNames]

@[simp] theorem Ghost.addFault_panel (f : GhostFault) (g : Ghost) : (g.addFault f).panel = g.panel := rfl

/-- `g'` records every ghost fault that `g` records. -/
def Ghost.FaultsKept (g g' : Ghost) : Prop := ∀ f ∈ g.faults, f ∈ g'.faults

theorem Ghost.FaultsKept.refl (g : Ghost) : g.FaultsKept g := fun _ h => h

theorem Ghost.FaultsKept.trans {g₁ g₂ g₃ : Ghost} (h : g₁.FaultsKept g₂) (h' : g₂.FaultsKept g₃) : g₁.FaultsKept g₃ :=
  fun f hf => h' f (h f hf)

theorem Ghost.FaultsKept.addFault {g g' : Ghost} (h : g.FaultsKept g') (f : GhostFault) : g.FaultsKept (g'.addFault f) :=
  fun n hn => (Ghost.mem_addFault f n g').2 (.inr (h n hn))

/-- Faults do not depend on the panel. -/
theorem Ghost.FaultsKept.of_eq {g g' : Ghost} (h : g'.faults = g.faults) : g.FaultsKept g' := fun _ hf => h ▸ hf

theorem Ghost.openStream_faultsKept (g : Ghost) : g.FaultsKept g.openStream := by
  unfold Ghost.openStream
  split
  · split
    · exact .of_eq rfl
    · exact (Ghost.FaultsKept.refl g).addFault .windowInvalid
  · exact (Ghost.FaultsKept.refl g).addFault .windowUnset

theorem Ghost.useWindow_faultsKept (g : Ghost) : g.FaultsKept g.useWindow := by
  unfold Ghost.useWindow
  simp only
  split
  · exact .of_eq rfl
  · exact (Ghost.FaultsKept.refl g).addFault .staleWindow

theorem Ghost.command_faultsKept (codes : CmdCodes) (b : Byte) (g : Ghost) : g.FaultsKept (g.command codes b) := by
  have h₁ : g.FaultsKept g.dropOddByte := by
    unfold Ghost.dropOddByte
    split
    · exact .refl g
    · exact (Ghost.FaultsKept.refl g).addFault .oddPixelByte
  unfold Ghost.command
  simp only
  let g₂ : Ghost := { g.dropOddByte with panel := g.dropOddByte.panel.takeCommand codes b }
  refine h₁.trans (Ghost.FaultsKept.trans (g₂ := g₂) (.of_eq rfl) ?_)
  split
  · have h₂ := (Ghost.useWindow_faultsKept g₂).trans (Ghost.openStream_faultsKept g₂.useWindow)
    exact h₂.trans (.of_eq rfl)
  · exact .of_eq rfl

theorem Ghost.pixelByte_faultsKept (b : Byte) (g : Ghost) : g.FaultsKept (g.pixelByte b) := by
  unfold Ghost.pixelByte
  split
  · exact .of_eq rfl
  · unfold Ghost.pixel
    split
    · exact .of_eq rfl
    · exact Ghost.FaultsKept.addFault (g' := { g with panel := { g.panel with pend := none } }) (.of_eq rfl) _
    · exact .of_eq rfl

theorem Ghost.paramByte_faultsKept (codes : CmdCodes) (c b : Byte) (g : Ghost) :
    g.FaultsKept (g.paramByte codes c b) := by
  have caset (g : Ghost) : g.FaultsKept g.casetParam := by
    unfold Ghost.casetParam
    repeat' split
    all_goals first | exact .of_eq rfl | exact (Ghost.FaultsKept.refl g).addFault _
  have raset (g : Ghost) : g.FaultsKept g.rasetParam := by
    unfold Ghost.rasetParam
    repeat' split
    all_goals first | exact .of_eq rfl | exact (Ghost.FaultsKept.refl g).addFault _
  have colmod (g : Ghost) : g.FaultsKept g.colmodParam := by
    unfold Ghost.colmodParam
    repeat' split
    all_goals first | exact .of_eq rfl | exact (Ghost.FaultsKept.refl g).addFault _
  have choose (p : Prop) [Decidable p] (f : Ghost → Ghost) (hf : ∀ g, Ghost.FaultsKept g (f g)) (g : Ghost) :
      g.FaultsKept (if p then f g else g) := by
    split
    · exact hf g
    · exact .refl g
  unfold Ghost.paramByte
  simp only
  refine Ghost.FaultsKept.trans ?_ (choose _ _ colmod _)
  refine Ghost.FaultsKept.trans ?_ (choose _ _ raset _)
  exact Ghost.FaultsKept.trans (g₂ := { g with panel := g.panel.recordParam c b }) (.of_eq rfl) (choose _ _ caset _)

theorem Ghost.byte_faultsKept (codes : CmdCodes) (dc : Bool) (b : Byte) (g : Ghost) :
    g.FaultsKept (g.byte codes dc b) := by
  have settle : g.FaultsKept g.checkSettle := by
    unfold Ghost.checkSettle
    split
    · exact (Ghost.FaultsKept.refl g).addFault _
    · exact .refl g
  unfold Ghost.byte
  split
  · exact .refl g
  · split
    · exact (Ghost.FaultsKept.refl g).addFault _
    · split
      · unfold Ghost.data
        split
        · exact settle.addFault _
        · split
          · exact settle.trans (Ghost.pixelByte_faultsKept b _)
          · exact settle.trans (Ghost.paramByte_faultsKept codes _ b _)
      · exact settle.trans (Ghost.command_faultsKept codes b _)

/-- No event removes a ghost fault (R219). -/
theorem Ghost.observe_faultsKept (codes : CmdCodes) (dc : Bool) (e : Event) (g : Ghost) :
    g.FaultsKept (g.observe codes dc e) := by
  unfold Ghost.observe
  split
  · exact .of_eq rfl
  · exact .of_eq rfl
  · exact .of_eq rfl
  · exact Ghost.byte_faultsKept codes dc _ g
  · exact Ghost.FaultsKept.addFault (g' := g.corrupt) (.of_eq rfl) _
  all_goals exact .refl g

/-! ### Soundness of the observation -/

/-- Soundness reads six fields of the panel. -/
theorem Ghost.Sound.of_eq {codes : CmdCodes} {g g' : Ghost} (h : g.Sound codes) (hg : g'.panel.gram = g.panel.gram)
    (hr : g'.panel.regs = g.panel.regs) (hc : g'.panel.cmd = g.panel.cmd) (hu : g'.panel.cur = g.panel.cur)
    (hw : g'.panel.colWin = g.panel.colWin) (hw' : g'.panel.rowWin = g.panel.rowWin) : g'.Sound codes := by
  obtain ⟨h₁, h₂, h₃, h₄⟩ := h
  refine ⟨hg ▸ h₁, hr ▸ h₂, hr ▸ h₃, fun hcmd => ?_⟩
  simpa [Panel.cursorInside, hu, hw, hw'] using h₄ (hc ▸ hcmd)

/-- What a panel that is in no pixel stream has to keep. -/
theorem Ghost.Sound.of_other {codes : CmdCodes} {g : Ghost} (hg : Memory.wf g.panel.gram) (hr : Table.wf g.panel.regs)
    (hk : ∀ c ∈ g.panel.regs, c.1 < 256) (hc : g.panel.cmd ≠ some codes.ramwr) : g.Sound codes :=
  ⟨hg, hr, hk, fun h => absurd h hc⟩

theorem Panel.takeCommand_tables (codes : CmdCodes) (b : Byte) (p : Panel) :
    ((p.takeCommand codes b).gram = p.gram ∧ (p.takeCommand codes b).regs = p.regs) ∨
    ((p.takeCommand codes b).gram = [] ∧ (p.takeCommand codes b).regs = []) := by
  unfold Panel.takeCommand
  split
  · exact .inr ⟨rfl, rfl⟩
  · exact .inl ⟨rfl, rfl⟩

theorem Ghost.ramwrStart_sound {codes : CmdCodes} {g : Ghost} (hg : Memory.wf g.panel.gram)
    (hr : Table.wf g.panel.regs) (hk : ∀ c ∈ g.panel.regs, c.1 < 256) : g.ramwrStart.Sound codes := by
  have htab : g.useWindow.panel.gram = g.panel.gram ∧ g.useWindow.panel.regs = g.panel.regs := by
    unfold Ghost.useWindow; simp only; split <;> exact ⟨rfl, rfl⟩
  unfold Ghost.ramwrStart Ghost.openStream
  split
  · next hcol hrow =>
    split
    · next hv =>
      refine ⟨htab.1 ▸ hg, htab.2 ▸ hr, htab.2 ▸ hk, fun _ => ?_⟩
      have := hv
      simp only [windowValid, decide_eq_true_eq] at this
      simp [Panel.cursorInside, hcol, hrow, hv, this.1, this.2.2.1]
    · exact ⟨htab.1 ▸ hg, htab.2 ▸ hr, htab.2 ▸ hk, fun _ => by simp [Panel.cursorInside]⟩
  · exact ⟨htab.1 ▸ hg, htab.2 ▸ hr, htab.2 ▸ hk, fun _ => by simp [Panel.cursorInside]⟩

theorem Ghost.command_sound {codes : CmdCodes} (b : Byte) {g : Ghost} (h : g.Sound codes) :
    (g.command codes b).Sound codes := by
  have hdrop : g.dropOddByte.panel.gram = g.panel.gram ∧ g.dropOddByte.panel.regs = g.panel.regs := by
    unfold Ghost.dropOddByte; split <;> exact ⟨rfl, rfl⟩
  have htab := Panel.takeCommand_tables codes b g.dropOddByte.panel
  rw [hdrop.1, hdrop.2] at htab
  have hg : Memory.wf (g.dropOddByte.panel.takeCommand codes b).gram := by
    rcases htab with h' | h' <;> rw [h'.1]
    · exact h.1
    · exact ⟨List.Pairwise.nil, by simp⟩
  have hr : Table.wf (g.dropOddByte.panel.takeCommand codes b).regs := by
    rcases htab with h' | h' <;> rw [h'.2]
    · exact h.2.1
    · exact List.Pairwise.nil
  have hk : ∀ c ∈ (g.dropOddByte.panel.takeCommand codes b).regs, c.1 < 256 := by
    rcases htab with h' | h' <;> rw [h'.2]
    · exact h.2.2.1
    · simp
  unfold Ghost.command
  simp only
  split
  · exact Ghost.Sound.of_eq (Ghost.ramwrStart_sound (codes := codes) hg hr hk) rfl rfl rfl rfl rfl rfl
  · next hb => exact .of_other hg hr hk (fun hc => hb (Option.some.inj hc))

theorem Panel.cursorInside_bounds {p : Panel} {x y : Nat} (h : p.cursorInside = true) (hc : p.cur = .cell x y) :
    ∃ col row, p.colWin = some col ∧ p.rowWin = some row ∧ windowValid col row = true ∧
      col.1.toNat ≤ x ∧ x ≤ col.2.toNat ∧ row.1.toNat ≤ y ∧ y ≤ row.2.toNat := by
  cases hcol : p.colWin <;> cases hrow : p.rowWin <;> simp [Panel.cursorInside, hc, hcol, hrow] at h
  exact ⟨_, _, rfl, rfl, h.1, h.2⟩

theorem Ghost.pixel_sound {codes : CmdCodes} (v : Half) {g : Ghost} (h : g.Sound codes)
    (hcmd : g.panel.cmd = some codes.ramwr) : (g.pixel v).Sound codes := by
  have hin := h.2.2.2 hcmd
  unfold Ghost.pixel
  split
  · exact h
  · exact h.of_eq rfl rfl rfl rfl rfl rfl
  · next x y hc =>
    obtain ⟨col, row, hcol, hrow, hv, hx', hx, hy', hy⟩ := Panel.cursorInside_bounds hin hc
    have hb := hv
    simp only [windowValid, decide_eq_true_eq] at hb
    refine ⟨Memory.writeCell_wf (by omega) (by omega) _ h.1, h.2.1, h.2.2.1, fun _ => ?_⟩
    simp only [Panel.cursorInside, Panel.advance, Panel.gramWrite, hcol, hrow]
    by_cases h₁ : x < col.2.toNat
    · simp [h₁, hv, hy, hy']; omega
    · by_cases h₂ : y < row.2.toNat
      · simp [h₁, h₂, hv, hb.1]; omega
      · simp [h₁, h₂]

theorem Ghost.pixelByte_sound {codes : CmdCodes} (b : Byte) {g : Ghost} (h : g.Sound codes)
    (hcmd : g.panel.cmd = some codes.ramwr) : (g.pixelByte b).Sound codes := by
  unfold Ghost.pixelByte
  split
  · exact h.of_eq rfl rfl rfl rfl rfl rfl
  · exact Ghost.pixel_sound _ (h.of_eq rfl rfl rfl rfl rfl rfl) hcmd

/-- The fields a parameter byte leaves alone, beside the recorded parameters. -/
theorem Ghost.paramByte_tables (codes : CmdCodes) (c b : Byte) (g : Ghost) :
    (g.paramByte codes c b).panel.gram = g.panel.gram ∧ (g.paramByte codes c b).panel.cmd = g.panel.cmd ∧
      (g.paramByte codes c b).panel.regs = Table.put c.toNat (g.panel.args ++ [b]) g.panel.regs := by
  have caset (g : Ghost) : g.casetParam.panel.gram = g.panel.gram ∧ g.casetParam.panel.cmd = g.panel.cmd ∧
      g.casetParam.panel.regs = g.panel.regs := by
    unfold Ghost.casetParam
    repeat' split
    all_goals exact ⟨rfl, rfl, rfl⟩
  have raset (g : Ghost) : g.rasetParam.panel.gram = g.panel.gram ∧ g.rasetParam.panel.cmd = g.panel.cmd ∧
      g.rasetParam.panel.regs = g.panel.regs := by
    unfold Ghost.rasetParam
    repeat' split
    all_goals exact ⟨rfl, rfl, rfl⟩
  have colmod (g : Ghost) : g.colmodParam.panel.gram = g.panel.gram ∧ g.colmodParam.panel.cmd = g.panel.cmd ∧
      g.colmodParam.panel.regs = g.panel.regs := by
    unfold Ghost.colmodParam
    repeat' split
    all_goals exact ⟨rfl, rfl, rfl⟩
  have choose (p : Prop) [Decidable p] (f : Ghost → Ghost)
      (hf : ∀ g, (f g).panel.gram = g.panel.gram ∧ (f g).panel.cmd = g.panel.cmd ∧ (f g).panel.regs = g.panel.regs)
      (g : Ghost) : (if p then f g else g).panel.gram = g.panel.gram ∧ (if p then f g else g).panel.cmd = g.panel.cmd ∧
        (if p then f g else g).panel.regs = g.panel.regs := by
    split
    · exact hf g
    · exact ⟨rfl, rfl, rfl⟩
  unfold Ghost.paramByte
  simp only
  generalize hg₀ : ({ g with panel := g.panel.recordParam c b } : Ghost) = g₀
  have h₁ := choose (c = codes.caset) _ caset g₀
  generalize (if c = codes.caset then g₀.casetParam else g₀) = g₁ at h₁ ⊢
  have h₂ := choose (c = codes.raset) _ raset g₁
  generalize (if c = codes.raset then g₁.rasetParam else g₁) = g₂ at h₂ ⊢
  have h₃ := choose (c = codes.colmod) _ colmod g₂
  subst hg₀
  exact ⟨h₃.1.trans (h₂.1.trans h₁.1), h₃.2.1.trans (h₂.2.1.trans h₁.2.1), h₃.2.2.trans (h₂.2.2.trans h₁.2.2)⟩

theorem Ghost.paramByte_sound {codes : CmdCodes} (c b : Byte) {g : Ghost} (h : g.Sound codes)
    (hc : g.panel.cmd = some c) (hne : c ≠ codes.ramwr) : (g.paramByte codes c b).Sound codes := by
  obtain ⟨hg, hcmd, hr⟩ := Ghost.paramByte_tables codes c b g
  refine .of_other (hg ▸ h.1) (hr ▸ Table.put_wf _ _ h.2.1) (fun e he => ?_) (by rw [hcmd, hc]; simpa using hne)
  rw [hr] at he
  rcases Table.mem_put he with rfl | he
  · exact c.isLt
  · exact h.2.2.1 e he

theorem Ghost.checkSettle_panel (g : Ghost) : g.checkSettle.panel = g.panel := by
  unfold Ghost.checkSettle; split <;> rfl

theorem Ghost.byte_sound {codes : CmdCodes} (dc : Bool) (b : Byte) {g : Ghost} (h : g.Sound codes) :
    (g.byte codes dc b).Sound codes := by
  have hs : g.checkSettle.Sound codes := by
    have := Ghost.checkSettle_panel g
    exact h.of_eq (by rw [this]) (by rw [this]) (by rw [this]) (by rw [this]) (by rw [this]) (by rw [this])
  unfold Ghost.byte
  split
  · exact h
  · split
    · exact h.of_eq rfl rfl rfl rfl rfl rfl
    · split
      · unfold Ghost.data
        split
        · exact hs.of_eq rfl rfl rfl rfl rfl rfl
        · next c hc =>
          split
          · next he => exact Ghost.pixelByte_sound b hs (he ▸ hc)
          · next hne => exact Ghost.paramByte_sound c b hs hc hne
      · exact Ghost.command_sound b hs

/-- Every event keeps the observation sound. -/
theorem Ghost.observe_sound {codes : CmdCodes} (dc : Bool) (e : Event) {g : Ghost} (h : g.Sound codes) :
    (g.observe codes dc e).Sound codes := by
  unfold Ghost.observe
  split
  · exact .of_other ⟨List.Pairwise.nil, by simp [Panel.reset, Panel.initial]⟩ List.Pairwise.nil
      (by simp [Panel.reset, Panel.initial]) (by simp [Panel.reset, Panel.initial])
  · exact h.of_eq rfl rfl rfl rfl rfl rfl
  · exact h.of_eq rfl rfl rfl rfl rfl rfl
  · exact Ghost.byte_sound dc _ h
  · exact h.of_eq rfl rfl rfl rfl rfl rfl
  all_goals exact h

/-! ### Streams of events -/

theorem Ghost.observeAll_append (codes : CmdCodes) (dc : Bool) (es fs : List Event) (g : Ghost) :
    Ghost.observeAll codes dc (es ++ fs) g
      = Ghost.observeAll codes (es.foldl dcAfter dc) fs (Ghost.observeAll codes dc es g) := by
  induction es generalizing dc g with
  | nil => rfl
  | cons e es ih => exact ih _ _

end Sys2Proof.Machine
end

