-- ==== Sys2Proof/Laws/State.lean ====
section
/-! SUPPORT. What each named update of the state does to each field, one lemma a field, for `simp`. -/

namespace Sys2Proof.Machine.State

/-! ### `emit` -/

@[simp] theorem emit_cfg (s : State) (e : Event) : (s.emit e).cfg = s.cfg := rfl
@[simp] theorem emit_seq (s : State) (e : Event) : (s.emit e).seq = s.seq := rfl
@[simp] theorem emit_work (s : State) (e : Event) : (s.emit e).work = s.work := rfl
@[simp] theorem emit_held (s : State) (e : Event) : (s.emit e).held = s.held := rfl
@[simp] theorem emit_romIdx (s : State) (e : Event) : (s.emit e).romIdx = s.romIdx := rfl
@[simp] theorem emit_runCnt (s : State) (e : Event) : (s.emit e).runCnt = s.runCnt := rfl
@[simp] theorem emit_frameOpen (s : State) (e : Event) : (s.emit e).frameOpen = s.frameOpen := rfl
@[simp] theorem emit_ready (s : State) (e : Event) : (s.emit e).ready = s.ready := rfl
@[simp] theorem emit_errTransport (s : State) (e : Event) : (s.emit e).errTransport = s.errTransport := rfl
@[simp] theorem emit_errIllegalOp (s : State) (e : Event) : (s.emit e).errIllegalOp = s.errIllegalOp := rfl
@[simp] theorem emit_warnNotReady (s : State) (e : Event) : (s.emit e).warnNotReady = s.warnNotReady := rfl
@[simp] theorem emit_nativeResult (s : State) (e : Event) : (s.emit e).nativeResult = s.nativeResult := rfl
@[simp] theorem emit_latches (s : State) (e : Event) : (s.emit e).latches = s.latches := rfl
@[simp] theorem emit_nativeLatch (s : State) (e : Event) : (s.emit e).nativeLatch = s.nativeLatch := rfl
@[simp] theorem emit_dcCfg (s : State) (e : Event) : (s.emit e).dcCfg = s.dcCfg := rfl
@[simp] theorem emit_dcLvl (s : State) (e : Event) : (s.emit e).dcLvl = s.dcLvl := rfl
@[simp] theorem emit_rstCfg (s : State) (e : Event) : (s.emit e).rstCfg = s.rstCfg := rfl
@[simp] theorem emit_rstLvl (s : State) (e : Event) : (s.emit e).rstLvl = s.rstLvl := rfl
@[simp] theorem emit_blCfg (s : State) (e : Event) : (s.emit e).blCfg = s.blCfg := rfl
@[simp] theorem emit_blLvl (s : State) (e : Event) : (s.emit e).blLvl = s.blLvl := rfl
@[simp] theorem emit_rstN (s : State) (e : Event) : (s.emit e).rstN = s.rstN := rfl
@[simp] theorem emit_opDone (s : State) (e : Event) : (s.emit e).opDone = s.opDone := rfl
@[simp] theorem emit_opStatus (s : State) (e : Event) : (s.emit e).opStatus = s.opStatus := rfl
@[simp] theorem emit_regRdata (s : State) (e : Event) : (s.emit e).regRdata = s.regRdata := rfl
@[simp] theorem emit_cvNative (s : State) (e : Event) : (s.emit e).cvNative = s.cvNative := rfl
@[simp] theorem emit_trace (s : State) (e : Event) : (s.emit e).trace = s.trace ++ [e] := rfl
@[simp] theorem emit_ghost (s : State) (e : Event) : (s.emit e).ghost = s.ghost.observe s.cfg.codes s.dcLvl e := rfl
@[simp] theorem emit_inputs (s : State) (e : Event) : (s.emit e).inputs = s.inputs := rfl
@[simp] theorem emit_transport (s : State) (e : Event) : (s.emit e).transport = s.transport := rfl
@[simp] theorem emit_pauses (s : State) (e : Event) : (s.emit e).pauses = s.pauses := rfl
@[simp] theorem emit_freeDraws (s : State) (e : Event) : (s.emit e).freeDraws = s.freeDraws := rfl

/-! ### `S.p_CFG <- 1` -/

@[simp] theorem setPinCfg_cfg (s : State) (p : Pin) : (s.setPinCfg p).cfg = s.cfg := by
  cases p <;> simp [State.setPinCfg]
@[simp] theorem setPinCfg_seq (s : State) (p : Pin) : (s.setPinCfg p).seq = s.seq := by
  cases p <;> simp [State.setPinCfg]
@[simp] theorem setPinCfg_work (s : State) (p : Pin) : (s.setPinCfg p).work = s.work := by
  cases p <;> simp [State.setPinCfg]
@[simp] theorem setPinCfg_held (s : State) (p : Pin) : (s.setPinCfg p).held = s.held := by
  cases p <;> simp [State.setPinCfg]
@[simp] theorem setPinCfg_romIdx (s : State) (p : Pin) : (s.setPinCfg p).romIdx = s.romIdx := by
  cases p <;> simp [State.setPinCfg]
@[simp] theorem setPinCfg_runCnt (s : State) (p : Pin) : (s.setPinCfg p).runCnt = s.runCnt := by
  cases p <;> simp [State.setPinCfg]
@[simp] theorem setPinCfg_frameOpen (s : State) (p : Pin) : (s.setPinCfg p).frameOpen = s.frameOpen := by
  cases p <;> simp [State.setPinCfg]
@[simp] theorem setPinCfg_ready (s : State) (p : Pin) : (s.setPinCfg p).ready = s.ready := by
  cases p <;> simp [State.setPinCfg]
@[simp] theorem setPinCfg_errTransport (s : State) (p : Pin) : (s.setPinCfg p).errTransport = s.errTransport := by
  cases p <;> simp [State.setPinCfg]
@[simp] theorem setPinCfg_errIllegalOp (s : State) (p : Pin) : (s.setPinCfg p).errIllegalOp = s.errIllegalOp := by
  cases p <;> simp [State.setPinCfg]
@[simp] theorem setPinCfg_warnNotReady (s : State) (p : Pin) : (s.setPinCfg p).warnNotReady = s.warnNotReady := by
  cases p <;> simp [State.setPinCfg]
@[simp] theorem setPinCfg_nativeResult (s : State) (p : Pin) : (s.setPinCfg p).nativeResult = s.nativeResult := by
  cases p <;> simp [State.setPinCfg]
@[simp] theorem setPinCfg_latches (s : State) (p : Pin) : (s.setPinCfg p).latches = s.latches := by
  cases p <;> simp [State.setPinCfg]
@[simp] theorem setPinCfg_nativeLatch (s : State) (p : Pin) : (s.setPinCfg p).nativeLatch = s.nativeLatch := by
  cases p <;> simp [State.setPinCfg]
@[simp] theorem setPinCfg_dcCfg (s : State) (p : Pin) : (s.setPinCfg p).dcCfg = (s.dcCfg || p == .dc) := by
  cases p <;> simp [State.setPinCfg]
@[simp] theorem setPinCfg_dcLvl (s : State) (p : Pin) : (s.setPinCfg p).dcLvl = s.dcLvl := by
  cases p <;> simp [State.setPinCfg]
@[simp] theorem setPinCfg_rstCfg (s : State) (p : Pin) : (s.setPinCfg p).rstCfg = (s.rstCfg || p == .rst) := by
  cases p <;> simp [State.setPinCfg]
@[simp] theorem setPinCfg_rstLvl (s : State) (p : Pin) : (s.setPinCfg p).rstLvl = s.rstLvl := by
  cases p <;> simp [State.setPinCfg]
@[simp] theorem setPinCfg_blCfg (s : State) (p : Pin) : (s.setPinCfg p).blCfg = (s.blCfg || p == .bl) := by
  cases p <;> simp [State.setPinCfg]
@[simp] theorem setPinCfg_blLvl (s : State) (p : Pin) : (s.setPinCfg p).blLvl = s.blLvl := by
  cases p <;> simp [State.setPinCfg]
@[simp] theorem setPinCfg_rstN (s : State) (p : Pin) : (s.setPinCfg p).rstN = s.rstN := by
  cases p <;> simp [State.setPinCfg]
@[simp] theorem setPinCfg_opDone (s : State) (p : Pin) : (s.setPinCfg p).opDone = s.opDone := by
  cases p <;> simp [State.setPinCfg]
@[simp] theorem setPinCfg_opStatus (s : State) (p : Pin) : (s.setPinCfg p).opStatus = s.opStatus := by
  cases p <;> simp [State.setPinCfg]
@[simp] theorem setPinCfg_regRdata (s : State) (p : Pin) : (s.setPinCfg p).regRdata = s.regRdata := by
  cases p <;> simp [State.setPinCfg]
@[simp] theorem setPinCfg_cvNative (s : State) (p : Pin) : (s.setPinCfg p).cvNative = s.cvNative := by
  cases p <;> simp [State.setPinCfg]
@[simp] theorem setPinCfg_trace (s : State) (p : Pin) : (s.setPinCfg p).trace = s.trace := by
  cases p <;> simp [State.setPinCfg]
@[simp] theorem setPinCfg_ghost (s : State) (p : Pin) : (s.setPinCfg p).ghost = s.ghost := by
  cases p <;> simp [State.setPinCfg]
@[simp] theorem setPinCfg_inputs (s : State) (p : Pin) : (s.setPinCfg p).inputs = s.inputs := by
  cases p <;> simp [State.setPinCfg]
@[simp] theorem setPinCfg_transport (s : State) (p : Pin) : (s.setPinCfg p).transport = s.transport := by
  cases p <;> simp [State.setPinCfg]
@[simp] theorem setPinCfg_pauses (s : State) (p : Pin) : (s.setPinCfg p).pauses = s.pauses := by
  cases p <;> simp [State.setPinCfg]
@[simp] theorem setPinCfg_freeDraws (s : State) (p : Pin) : (s.setPinCfg p).freeDraws = s.freeDraws := by
  cases p <;> simp [State.setPinCfg]

/-! ### `S.p_LVL <- l` -/

@[simp] theorem setPinLvl_cfg (s : State) (p : Pin) (l : Bool) : (s.setPinLvl p l).cfg = s.cfg := by
  cases p <;> simp [State.setPinLvl]
@[simp] theorem setPinLvl_seq (s : State) (p : Pin) (l : Bool) : (s.setPinLvl p l).seq = s.seq := by
  cases p <;> simp [State.setPinLvl]
@[simp] theorem setPinLvl_work (s : State) (p : Pin) (l : Bool) : (s.setPinLvl p l).work = s.work := by
  cases p <;> simp [State.setPinLvl]
@[simp] theorem setPinLvl_held (s : State) (p : Pin) (l : Bool) : (s.setPinLvl p l).held = s.held := by
  cases p <;> simp [State.setPinLvl]
@[simp] theorem setPinLvl_romIdx (s : State) (p : Pin) (l : Bool) : (s.setPinLvl p l).romIdx = s.romIdx := by
  cases p <;> simp [State.setPinLvl]
@[simp] theorem setPinLvl_runCnt (s : State) (p : Pin) (l : Bool) : (s.setPinLvl p l).runCnt = s.runCnt := by
  cases p <;> simp [State.setPinLvl]
@[simp] theorem setPinLvl_frameOpen (s : State) (p : Pin) (l : Bool) : (s.setPinLvl p l).frameOpen = s.frameOpen := by
  cases p <;> simp [State.setPinLvl]
@[simp] theorem setPinLvl_ready (s : State) (p : Pin) (l : Bool) : (s.setPinLvl p l).ready = s.ready := by
  cases p <;> simp [State.setPinLvl]
@[simp] theorem setPinLvl_errTransport (s : State) (p : Pin) (l : Bool) : (s.setPinLvl p l).errTransport = s.errTransport := by
  cases p <;> simp [State.setPinLvl]
@[simp] theorem setPinLvl_errIllegalOp (s : State) (p : Pin) (l : Bool) : (s.setPinLvl p l).errIllegalOp = s.errIllegalOp := by
  cases p <;> simp [State.setPinLvl]
@[simp] theorem setPinLvl_warnNotReady (s : State) (p : Pin) (l : Bool) : (s.setPinLvl p l).warnNotReady = s.warnNotReady := by
  cases p <;> simp [State.setPinLvl]
@[simp] theorem setPinLvl_nativeResult (s : State) (p : Pin) (l : Bool) : (s.setPinLvl p l).nativeResult = s.nativeResult := by
  cases p <;> simp [State.setPinLvl]
@[simp] theorem setPinLvl_latches (s : State) (p : Pin) (l : Bool) : (s.setPinLvl p l).latches = s.latches := by
  cases p <;> simp [State.setPinLvl]
@[simp] theorem setPinLvl_nativeLatch (s : State) (p : Pin) (l : Bool) : (s.setPinLvl p l).nativeLatch = s.nativeLatch := by
  cases p <;> simp [State.setPinLvl]
@[simp] theorem setPinLvl_dcCfg (s : State) (p : Pin) (l : Bool) : (s.setPinLvl p l).dcCfg = s.dcCfg := by
  cases p <;> simp [State.setPinLvl]
@[simp] theorem setPinLvl_dcLvl (s : State) (p : Pin) (l : Bool) : (s.setPinLvl p l).dcLvl = (if p = .dc then l else s.dcLvl) := by
  cases p <;> simp [State.setPinLvl]
@[simp] theorem setPinLvl_rstCfg (s : State) (p : Pin) (l : Bool) : (s.setPinLvl p l).rstCfg = s.rstCfg := by
  cases p <;> simp [State.setPinLvl]
@[simp] theorem setPinLvl_rstLvl (s : State) (p : Pin) (l : Bool) : (s.setPinLvl p l).rstLvl = (if p = .rst then l else s.rstLvl) := by
  cases p <;> simp [State.setPinLvl]
@[simp] theorem setPinLvl_blCfg (s : State) (p : Pin) (l : Bool) : (s.setPinLvl p l).blCfg = s.blCfg := by
  cases p <;> simp [State.setPinLvl]
@[simp] theorem setPinLvl_blLvl (s : State) (p : Pin) (l : Bool) : (s.setPinLvl p l).blLvl = (if p = .bl then l else s.blLvl) := by
  cases p <;> simp [State.setPinLvl]
@[simp] theorem setPinLvl_rstN (s : State) (p : Pin) (l : Bool) : (s.setPinLvl p l).rstN = s.rstN := by
  cases p <;> simp [State.setPinLvl]
@[simp] theorem setPinLvl_opDone (s : State) (p : Pin) (l : Bool) : (s.setPinLvl p l).opDone = s.opDone := by
  cases p <;> simp [State.setPinLvl]
@[simp] theorem setPinLvl_opStatus (s : State) (p : Pin) (l : Bool) : (s.setPinLvl p l).opStatus = s.opStatus := by
  cases p <;> simp [State.setPinLvl]
@[simp] theorem setPinLvl_regRdata (s : State) (p : Pin) (l : Bool) : (s.setPinLvl p l).regRdata = s.regRdata := by
  cases p <;> simp [State.setPinLvl]
@[simp] theorem setPinLvl_cvNative (s : State) (p : Pin) (l : Bool) : (s.setPinLvl p l).cvNative = s.cvNative := by
  cases p <;> simp [State.setPinLvl]
@[simp] theorem setPinLvl_trace (s : State) (p : Pin) (l : Bool) : (s.setPinLvl p l).trace = s.trace := by
  cases p <;> simp [State.setPinLvl]
@[simp] theorem setPinLvl_ghost (s : State) (p : Pin) (l : Bool) : (s.setPinLvl p l).ghost = s.ghost := by
  cases p <;> simp [State.setPinLvl]
@[simp] theorem setPinLvl_inputs (s : State) (p : Pin) (l : Bool) : (s.setPinLvl p l).inputs = s.inputs := by
  cases p <;> simp [State.setPinLvl]
@[simp] theorem setPinLvl_transport (s : State) (p : Pin) (l : Bool) : (s.setPinLvl p l).transport = s.transport := by
  cases p <;> simp [State.setPinLvl]
@[simp] theorem setPinLvl_pauses (s : State) (p : Pin) (l : Bool) : (s.setPinLvl p l).pauses = s.pauses := by
  cases p <;> simp [State.setPinLvl]
@[simp] theorem setPinLvl_freeDraws (s : State) (p : Pin) (l : Bool) : (s.setPinLvl p l).freeDraws = s.freeDraws := by
  cases p <;> simp [State.setPinLvl]

/-! ### A transport call that answered OK -/

@[simp] theorem callOk_cfg (s : State) (c : TCall) : (s.callOk c).cfg = s.cfg := rfl
@[simp] theorem callOk_seq (s : State) (c : TCall) : (s.callOk c).seq = s.seq := rfl
@[simp] theorem callOk_work (s : State) (c : TCall) : (s.callOk c).work = s.work := rfl
@[simp] theorem callOk_held (s : State) (c : TCall) : (s.callOk c).held = s.held := rfl
@[simp] theorem callOk_romIdx (s : State) (c : TCall) : (s.callOk c).romIdx = s.romIdx := rfl
@[simp] theorem callOk_runCnt (s : State) (c : TCall) : (s.callOk c).runCnt = s.runCnt := rfl
@[simp] theorem callOk_frameOpen (s : State) (c : TCall) : (s.callOk c).frameOpen = c.frameAfter s.frameOpen := rfl
@[simp] theorem callOk_ready (s : State) (c : TCall) : (s.callOk c).ready = s.ready := rfl
@[simp] theorem callOk_errTransport (s : State) (c : TCall) : (s.callOk c).errTransport = s.errTransport := rfl
@[simp] theorem callOk_errIllegalOp (s : State) (c : TCall) : (s.callOk c).errIllegalOp = s.errIllegalOp := rfl
@[simp] theorem callOk_warnNotReady (s : State) (c : TCall) : (s.callOk c).warnNotReady = s.warnNotReady := rfl
@[simp] theorem callOk_nativeResult (s : State) (c : TCall) : (s.callOk c).nativeResult = s.nativeResult := rfl
@[simp] theorem callOk_latches (s : State) (c : TCall) : (s.callOk c).latches = s.latches := rfl
@[simp] theorem callOk_nativeLatch (s : State) (c : TCall) : (s.callOk c).nativeLatch = s.nativeLatch := rfl
@[simp] theorem callOk_dcCfg (s : State) (c : TCall) : (s.callOk c).dcCfg = s.dcCfg := rfl
@[simp] theorem callOk_dcLvl (s : State) (c : TCall) : (s.callOk c).dcLvl = s.dcLvl := rfl
@[simp] theorem callOk_rstCfg (s : State) (c : TCall) : (s.callOk c).rstCfg = s.rstCfg := rfl
@[simp] theorem callOk_rstLvl (s : State) (c : TCall) : (s.callOk c).rstLvl = s.rstLvl := rfl
@[simp] theorem callOk_blCfg (s : State) (c : TCall) : (s.callOk c).blCfg = s.blCfg := rfl
@[simp] theorem callOk_blLvl (s : State) (c : TCall) : (s.callOk c).blLvl = s.blLvl := rfl
@[simp] theorem callOk_rstN (s : State) (c : TCall) : (s.callOk c).rstN = s.rstN := rfl
@[simp] theorem callOk_opDone (s : State) (c : TCall) : (s.callOk c).opDone = s.opDone := rfl
@[simp] theorem callOk_opStatus (s : State) (c : TCall) : (s.callOk c).opStatus = s.opStatus := rfl
@[simp] theorem callOk_regRdata (s : State) (c : TCall) : (s.callOk c).regRdata = s.regRdata := rfl
@[simp] theorem callOk_cvNative (s : State) (c : TCall) : (s.callOk c).cvNative = s.cvNative := rfl
@[simp] theorem callOk_trace (s : State) (c : TCall) : (s.callOk c).trace = s.trace ++ [c.event] := rfl
@[simp] theorem callOk_ghost (s : State) (c : TCall) : (s.callOk c).ghost = s.ghost.observe s.cfg.codes s.dcLvl c.event := rfl
@[simp] theorem callOk_inputs (s : State) (c : TCall) : (s.callOk c).inputs = s.inputs := rfl
@[simp] theorem callOk_transport (s : State) (c : TCall) : (s.callOk c).transport = s.transport := rfl
@[simp] theorem callOk_pauses (s : State) (c : TCall) : (s.callOk c).pauses = s.pauses := rfl
@[simp] theorem callOk_freeDraws (s : State) (c : TCall) : (s.callOk c).freeDraws = s.freeDraws := rfl

/-! ### Completion -/

@[simp] theorem finish_cfg (s : State) (status : BitVec 4) : (s.finish status).cfg = s.cfg := rfl
@[simp] theorem finish_seq (s : State) (status : BitVec 4) : (s.finish status).seq = .idle := rfl
@[simp] theorem finish_work (s : State) (status : BitVec 4) : (s.finish status).work = s.work := rfl
@[simp] theorem finish_held (s : State) (status : BitVec 4) : (s.finish status).held = s.held := rfl
@[simp] theorem finish_romIdx (s : State) (status : BitVec 4) : (s.finish status).romIdx = s.romIdx := rfl
@[simp] theorem finish_runCnt (s : State) (status : BitVec 4) : (s.finish status).runCnt = s.runCnt := rfl
@[simp] theorem finish_frameOpen (s : State) (status : BitVec 4) : (s.finish status).frameOpen = s.frameOpen := rfl
@[simp] theorem finish_ready (s : State) (status : BitVec 4) : (s.finish status).ready = s.ready := rfl
@[simp] theorem finish_errTransport (s : State) (status : BitVec 4) : (s.finish status).errTransport = s.errTransport := rfl
@[simp] theorem finish_errIllegalOp (s : State) (status : BitVec 4) : (s.finish status).errIllegalOp = s.errIllegalOp := rfl
@[simp] theorem finish_warnNotReady (s : State) (status : BitVec 4) : (s.finish status).warnNotReady = s.warnNotReady := rfl
@[simp] theorem finish_nativeResult (s : State) (status : BitVec 4) : (s.finish status).nativeResult = s.nativeResult := rfl
@[simp] theorem finish_latches (s : State) (status : BitVec 4) : (s.finish status).latches = s.latches := rfl
@[simp] theorem finish_nativeLatch (s : State) (status : BitVec 4) : (s.finish status).nativeLatch = s.nativeLatch := rfl
@[simp] theorem finish_dcCfg (s : State) (status : BitVec 4) : (s.finish status).dcCfg = s.dcCfg := rfl
@[simp] theorem finish_dcLvl (s : State) (status : BitVec 4) : (s.finish status).dcLvl = s.dcLvl := rfl
@[simp] theorem finish_rstCfg (s : State) (status : BitVec 4) : (s.finish status).rstCfg = s.rstCfg := rfl
@[simp] theorem finish_rstLvl (s : State) (status : BitVec 4) : (s.finish status).rstLvl = s.rstLvl := rfl
@[simp] theorem finish_blCfg (s : State) (status : BitVec 4) : (s.finish status).blCfg = s.blCfg := rfl
@[simp] theorem finish_blLvl (s : State) (status : BitVec 4) : (s.finish status).blLvl = s.blLvl := rfl
@[simp] theorem finish_rstN (s : State) (status : BitVec 4) : (s.finish status).rstN = s.rstN := rfl
@[simp] theorem finish_opDone (s : State) (status : BitVec 4) : (s.finish status).opDone = true := rfl
@[simp] theorem finish_opStatus (s : State) (status : BitVec 4) : (s.finish status).opStatus = status := rfl
@[simp] theorem finish_regRdata (s : State) (status : BitVec 4) : (s.finish status).regRdata = s.regRdata := rfl
@[simp] theorem finish_cvNative (s : State) (status : BitVec 4) : (s.finish status).cvNative = s.cvNative := rfl
@[simp] theorem finish_trace (s : State) (status : BitVec 4) : (s.finish status).trace = s.trace := rfl
@[simp] theorem finish_ghost (s : State) (status : BitVec 4) : (s.finish status).ghost = s.ghost := rfl
@[simp] theorem finish_inputs (s : State) (status : BitVec 4) : (s.finish status).inputs = s.inputs := rfl
@[simp] theorem finish_transport (s : State) (status : BitVec 4) : (s.finish status).transport = s.transport := rfl
@[simp] theorem finish_pauses (s : State) (status : BitVec 4) : (s.finish status).pauses = s.pauses := rfl
@[simp] theorem finish_freeDraws (s : State) (status : BitVec 4) : (s.finish status).freeDraws = s.freeDraws := rfl

/-! ### The transport abort -/

@[simp] theorem abortTransport_cfg (s : State) : (s.abortTransport).cfg = s.cfg := rfl
@[simp] theorem abortTransport_seq (s : State) : (s.abortTransport).seq = .idle := rfl
@[simp] theorem abortTransport_work (s : State) : (s.abortTransport).work = [] := rfl
@[simp] theorem abortTransport_held (s : State) : (s.abortTransport).held = s.held := rfl
@[simp] theorem abortTransport_romIdx (s : State) : (s.abortTransport).romIdx = s.romIdx := rfl
@[simp] theorem abortTransport_runCnt (s : State) : (s.abortTransport).runCnt = 0 := rfl
@[simp] theorem abortTransport_frameOpen (s : State) : (s.abortTransport).frameOpen = s.frameOpen := rfl
@[simp] theorem abortTransport_ready (s : State) : (s.abortTransport).ready = false := rfl
@[simp] theorem abortTransport_errTransport (s : State) : (s.abortTransport).errTransport = true := rfl
@[simp] theorem abortTransport_errIllegalOp (s : State) : (s.abortTransport).errIllegalOp = s.errIllegalOp := rfl
@[simp] theorem abortTransport_warnNotReady (s : State) : (s.abortTransport).warnNotReady = s.warnNotReady := rfl
@[simp] theorem abortTransport_nativeResult (s : State) : (s.abortTransport).nativeResult = s.nativeResult := rfl
@[simp] theorem abortTransport_latches (s : State) : (s.abortTransport).latches = s.latches := rfl
@[simp] theorem abortTransport_nativeLatch (s : State) : (s.abortTransport).nativeLatch = s.nativeLatch := rfl
@[simp] theorem abortTransport_dcCfg (s : State) : (s.abortTransport).dcCfg = s.dcCfg := rfl
@[simp] theorem abortTransport_dcLvl (s : State) : (s.abortTransport).dcLvl = s.dcLvl := rfl
@[simp] theorem abortTransport_rstCfg (s : State) : (s.abortTransport).rstCfg = s.rstCfg := rfl
@[simp] theorem abortTransport_rstLvl (s : State) : (s.abortTransport).rstLvl = s.rstLvl := rfl
@[simp] theorem abortTransport_blCfg (s : State) : (s.abortTransport).blCfg = s.blCfg := rfl
@[simp] theorem abortTransport_blLvl (s : State) : (s.abortTransport).blLvl = s.blLvl := rfl
@[simp] theorem abortTransport_rstN (s : State) : (s.abortTransport).rstN = s.rstN := rfl
@[simp] theorem abortTransport_opDone (s : State) : (s.abortTransport).opDone = true := rfl
@[simp] theorem abortTransport_opStatus (s : State) : (s.abortTransport).opStatus = statusErrTransport := rfl
@[simp] theorem abortTransport_regRdata (s : State) : (s.abortTransport).regRdata = s.regRdata := rfl
@[simp] theorem abortTransport_cvNative (s : State) : (s.abortTransport).cvNative = s.cvNative := rfl
@[simp] theorem abortTransport_trace (s : State) : (s.abortTransport).trace = s.trace := rfl
@[simp] theorem abortTransport_ghost (s : State) : (s.abortTransport).ghost = s.ghost := rfl
@[simp] theorem abortTransport_inputs (s : State) : (s.abortTransport).inputs = s.inputs := rfl
@[simp] theorem abortTransport_transport (s : State) : (s.abortTransport).transport = s.transport := rfl
@[simp] theorem abortTransport_pauses (s : State) : (s.abortTransport).pauses = s.pauses := rfl
@[simp] theorem abortTransport_freeDraws (s : State) : (s.abortTransport).freeDraws = s.freeDraws := rfl

/-! ### Acceptance -/

@[simp] theorem accept_cfg (s : State) (l : Latches) : (s.accept l).cfg = s.cfg := rfl
@[simp] theorem accept_seq (s : State) (l : Latches) : (s.accept l).seq = .busy := rfl
@[simp] theorem accept_work (s : State) (l : Latches) : (s.accept l).work = s.work := rfl
@[simp] theorem accept_held (s : State) (l : Latches) : (s.accept l).held = s.held := rfl
@[simp] theorem accept_romIdx (s : State) (l : Latches) : (s.accept l).romIdx = s.romIdx := rfl
@[simp] theorem accept_runCnt (s : State) (l : Latches) : (s.accept l).runCnt = s.runCnt := rfl
@[simp] theorem accept_frameOpen (s : State) (l : Latches) : (s.accept l).frameOpen = s.frameOpen := rfl
@[simp] theorem accept_ready (s : State) (l : Latches) : (s.accept l).ready = s.ready := rfl
@[simp] theorem accept_errTransport (s : State) (l : Latches) : (s.accept l).errTransport = s.errTransport := rfl
@[simp] theorem accept_errIllegalOp (s : State) (l : Latches) : (s.accept l).errIllegalOp = s.errIllegalOp := rfl
@[simp] theorem accept_warnNotReady (s : State) (l : Latches) : (s.accept l).warnNotReady = s.warnNotReady := rfl
@[simp] theorem accept_nativeResult (s : State) (l : Latches) : (s.accept l).nativeResult = s.nativeResult := rfl
@[simp] theorem accept_latches (s : State) (l : Latches) : (s.accept l).latches = l := rfl
@[simp] theorem accept_nativeLatch (s : State) (l : Latches) : (s.accept l).nativeLatch = s.nativeLatch := rfl
@[simp] theorem accept_dcCfg (s : State) (l : Latches) : (s.accept l).dcCfg = s.dcCfg := rfl
@[simp] theorem accept_dcLvl (s : State) (l : Latches) : (s.accept l).dcLvl = s.dcLvl := rfl
@[simp] theorem accept_rstCfg (s : State) (l : Latches) : (s.accept l).rstCfg = s.rstCfg := rfl
@[simp] theorem accept_rstLvl (s : State) (l : Latches) : (s.accept l).rstLvl = s.rstLvl := rfl
@[simp] theorem accept_blCfg (s : State) (l : Latches) : (s.accept l).blCfg = s.blCfg := rfl
@[simp] theorem accept_blLvl (s : State) (l : Latches) : (s.accept l).blLvl = s.blLvl := rfl
@[simp] theorem accept_rstN (s : State) (l : Latches) : (s.accept l).rstN = s.rstN := rfl
@[simp] theorem accept_opDone (s : State) (l : Latches) : (s.accept l).opDone = false := rfl
@[simp] theorem accept_opStatus (s : State) (l : Latches) : (s.accept l).opStatus = s.opStatus := rfl
@[simp] theorem accept_regRdata (s : State) (l : Latches) : (s.accept l).regRdata = s.regRdata := rfl
@[simp] theorem accept_cvNative (s : State) (l : Latches) : (s.accept l).cvNative = s.cvNative := rfl
@[simp] theorem accept_trace (s : State) (l : Latches) : (s.accept l).trace = s.trace := rfl
@[simp] theorem accept_ghost (s : State) (l : Latches) : (s.accept l).ghost = s.ghost := rfl
@[simp] theorem accept_inputs (s : State) (l : Latches) : (s.accept l).inputs = s.inputs := rfl
@[simp] theorem accept_transport (s : State) (l : Latches) : (s.accept l).transport = s.transport := rfl
@[simp] theorem accept_pauses (s : State) (l : Latches) : (s.accept l).pauses = s.pauses := rfl
@[simp] theorem accept_freeDraws (s : State) (l : Latches) : (s.accept l).freeDraws = s.freeDraws := rfl

/-! ### The sticky bits -/

@[simp] theorem clearSticky_cfg (s : State) : (s.clearSticky).cfg = s.cfg := rfl
@[simp] theorem clearSticky_seq (s : State) : (s.clearSticky).seq = s.seq := rfl
@[simp] theorem clearSticky_work (s : State) : (s.clearSticky).work = s.work := rfl
@[simp] theorem clearSticky_held (s : State) : (s.clearSticky).held = s.held := rfl
@[simp] theorem clearSticky_romIdx (s : State) : (s.clearSticky).romIdx = s.romIdx := rfl
@[simp] theorem clearSticky_runCnt (s : State) : (s.clearSticky).runCnt = s.runCnt := rfl
@[simp] theorem clearSticky_frameOpen (s : State) : (s.clearSticky).frameOpen = s.frameOpen := rfl
@[simp] theorem clearSticky_ready (s : State) : (s.clearSticky).ready = s.ready := rfl
@[simp] theorem clearSticky_errTransport (s : State) : (s.clearSticky).errTransport = false := rfl
@[simp] theorem clearSticky_errIllegalOp (s : State) : (s.clearSticky).errIllegalOp = false := rfl
@[simp] theorem clearSticky_warnNotReady (s : State) : (s.clearSticky).warnNotReady = false := rfl
@[simp] theorem clearSticky_nativeResult (s : State) : (s.clearSticky).nativeResult = s.nativeResult := rfl
@[simp] theorem clearSticky_latches (s : State) : (s.clearSticky).latches = s.latches := rfl
@[simp] theorem clearSticky_nativeLatch (s : State) : (s.clearSticky).nativeLatch = s.nativeLatch := rfl
@[simp] theorem clearSticky_dcCfg (s : State) : (s.clearSticky).dcCfg = s.dcCfg := rfl
@[simp] theorem clearSticky_dcLvl (s : State) : (s.clearSticky).dcLvl = s.dcLvl := rfl
@[simp] theorem clearSticky_rstCfg (s : State) : (s.clearSticky).rstCfg = s.rstCfg := rfl
@[simp] theorem clearSticky_rstLvl (s : State) : (s.clearSticky).rstLvl = s.rstLvl := rfl
@[simp] theorem clearSticky_blCfg (s : State) : (s.clearSticky).blCfg = s.blCfg := rfl
@[simp] theorem clearSticky_blLvl (s : State) : (s.clearSticky).blLvl = s.blLvl := rfl
@[simp] theorem clearSticky_rstN (s : State) : (s.clearSticky).rstN = s.rstN := rfl
@[simp] theorem clearSticky_opDone (s : State) : (s.clearSticky).opDone = s.opDone := rfl
@[simp] theorem clearSticky_opStatus (s : State) : (s.clearSticky).opStatus = s.opStatus := rfl
@[simp] theorem clearSticky_regRdata (s : State) : (s.clearSticky).regRdata = s.regRdata := rfl
@[simp] theorem clearSticky_cvNative (s : State) : (s.clearSticky).cvNative = s.cvNative := rfl
@[simp] theorem clearSticky_trace (s : State) : (s.clearSticky).trace = s.trace := rfl
@[simp] theorem clearSticky_ghost (s : State) : (s.clearSticky).ghost = s.ghost := rfl
@[simp] theorem clearSticky_inputs (s : State) : (s.clearSticky).inputs = s.inputs := rfl
@[simp] theorem clearSticky_transport (s : State) : (s.clearSticky).transport = s.transport := rfl
@[simp] theorem clearSticky_pauses (s : State) : (s.clearSticky).pauses = s.pauses := rfl
@[simp] theorem clearSticky_freeDraws (s : State) : (s.clearSticky).freeDraws = s.freeDraws := rfl

/-! ### Counting an act -/

@[simp] theorem countAct_cfg (s : State) : (s.countAct).cfg = s.cfg := by
  unfold State.countAct; split <;> rfl
@[simp] theorem countAct_seq (s : State) : (s.countAct).seq = s.seq := by
  unfold State.countAct; split <;> rfl
@[simp] theorem countAct_work (s : State) : (s.countAct).work = s.work := by
  unfold State.countAct; split <;> rfl
@[simp] theorem countAct_held (s : State) : (s.countAct).held = s.held := by
  unfold State.countAct; split <;> rfl
@[simp] theorem countAct_romIdx (s : State) : (s.countAct).romIdx = s.romIdx := by
  unfold State.countAct; split <;> rfl
@[simp] theorem countAct_runCnt (s : State) : (s.countAct).runCnt = s.runCnt := by
  unfold State.countAct; split <;> rfl
@[simp] theorem countAct_frameOpen (s : State) : (s.countAct).frameOpen = s.frameOpen := by
  unfold State.countAct; split <;> rfl
@[simp] theorem countAct_ready (s : State) : (s.countAct).ready = s.ready := by
  unfold State.countAct; split <;> rfl
@[simp] theorem countAct_errTransport (s : State) : (s.countAct).errTransport = s.errTransport := by
  unfold State.countAct; split <;> rfl
@[simp] theorem countAct_errIllegalOp (s : State) : (s.countAct).errIllegalOp = s.errIllegalOp := by
  unfold State.countAct; split <;> rfl
@[simp] theorem countAct_warnNotReady (s : State) : (s.countAct).warnNotReady = s.warnNotReady := by
  unfold State.countAct; split <;> rfl
@[simp] theorem countAct_nativeResult (s : State) : (s.countAct).nativeResult = s.nativeResult := by
  unfold State.countAct; split <;> rfl
@[simp] theorem countAct_latches (s : State) : (s.countAct).latches = s.latches := by
  unfold State.countAct; split <;> rfl
@[simp] theorem countAct_nativeLatch (s : State) : (s.countAct).nativeLatch = s.nativeLatch := by
  unfold State.countAct; split <;> rfl
@[simp] theorem countAct_dcCfg (s : State) : (s.countAct).dcCfg = s.dcCfg := by
  unfold State.countAct; split <;> rfl
@[simp] theorem countAct_dcLvl (s : State) : (s.countAct).dcLvl = s.dcLvl := by
  unfold State.countAct; split <;> rfl
@[simp] theorem countAct_rstCfg (s : State) : (s.countAct).rstCfg = s.rstCfg := by
  unfold State.countAct; split <;> rfl
@[simp] theorem countAct_rstLvl (s : State) : (s.countAct).rstLvl = s.rstLvl := by
  unfold State.countAct; split <;> rfl
@[simp] theorem countAct_blCfg (s : State) : (s.countAct).blCfg = s.blCfg := by
  unfold State.countAct; split <;> rfl
@[simp] theorem countAct_blLvl (s : State) : (s.countAct).blLvl = s.blLvl := by
  unfold State.countAct; split <;> rfl
@[simp] theorem countAct_rstN (s : State) : (s.countAct).rstN = s.rstN := by
  unfold State.countAct; split <;> rfl
@[simp] theorem countAct_opDone (s : State) : (s.countAct).opDone = s.opDone := by
  unfold State.countAct; split <;> rfl
@[simp] theorem countAct_opStatus (s : State) : (s.countAct).opStatus = s.opStatus := by
  unfold State.countAct; split <;> rfl
@[simp] theorem countAct_regRdata (s : State) : (s.countAct).regRdata = s.regRdata := by
  unfold State.countAct; split <;> rfl
@[simp] theorem countAct_cvNative (s : State) : (s.countAct).cvNative = s.cvNative := by
  unfold State.countAct; split <;> rfl
@[simp] theorem countAct_trace (s : State) : (s.countAct).trace = s.trace := by
  unfold State.countAct; split <;> rfl
@[simp] theorem countAct_ghost (s : State) : (s.countAct).ghost = s.ghost := by
  unfold State.countAct; split <;> rfl
@[simp] theorem countAct_inputs (s : State) : (s.countAct).inputs = s.inputs := by
  unfold State.countAct; split <;> rfl
@[simp] theorem countAct_transport (s : State) : (s.countAct).transport = s.transport := by
  unfold State.countAct; split <;> rfl
@[simp] theorem countAct_freeDraws (s : State) : (s.countAct).freeDraws = s.freeDraws := by
  unfold State.countAct; split <;> rfl

/-! ### The block reset -/

@[simp] theorem resetBlock_cfg (s : State) : (s.resetBlock).cfg = s.cfg := rfl
@[simp] theorem resetBlock_seq (s : State) : (s.resetBlock).seq = .idle := rfl
@[simp] theorem resetBlock_work (s : State) : (s.resetBlock).work = [] := rfl
@[simp] theorem resetBlock_held (s : State) : (s.resetBlock).held = none := rfl
@[simp] theorem resetBlock_romIdx (s : State) : (s.resetBlock).romIdx = 0 := rfl
@[simp] theorem resetBlock_runCnt (s : State) : (s.resetBlock).runCnt = 0 := rfl
@[simp] theorem resetBlock_frameOpen (s : State) : (s.resetBlock).frameOpen = false := rfl
@[simp] theorem resetBlock_ready (s : State) : (s.resetBlock).ready = false := rfl
@[simp] theorem resetBlock_errTransport (s : State) : (s.resetBlock).errTransport = false := rfl
@[simp] theorem resetBlock_errIllegalOp (s : State) : (s.resetBlock).errIllegalOp = false := rfl
@[simp] theorem resetBlock_warnNotReady (s : State) : (s.resetBlock).warnNotReady = false := rfl
@[simp] theorem resetBlock_nativeResult (s : State) : (s.resetBlock).nativeResult = 0x0000 := rfl
@[simp] theorem resetBlock_latches (s : State) : (s.resetBlock).latches = Config.freeLatches s.freeDraws := rfl
@[simp] theorem resetBlock_nativeLatch (s : State) : (s.resetBlock).nativeLatch = Config.freeNativeLatch s.freeDraws := rfl
@[simp] theorem resetBlock_dcCfg (s : State) : (s.resetBlock).dcCfg = false := rfl
@[simp] theorem resetBlock_dcLvl (s : State) : (s.resetBlock).dcLvl = false := rfl
@[simp] theorem resetBlock_rstCfg (s : State) : (s.resetBlock).rstCfg = false := rfl
@[simp] theorem resetBlock_rstLvl (s : State) : (s.resetBlock).rstLvl = false := rfl
@[simp] theorem resetBlock_blCfg (s : State) : (s.resetBlock).blCfg = false := rfl
@[simp] theorem resetBlock_blLvl (s : State) : (s.resetBlock).blLvl = false := rfl
@[simp] theorem resetBlock_rstN (s : State) : (s.resetBlock).rstN = s.rstN := rfl
@[simp] theorem resetBlock_opDone (s : State) : (s.resetBlock).opDone = false := rfl
@[simp] theorem resetBlock_opStatus (s : State) : (s.resetBlock).opStatus = s.opStatus := rfl
@[simp] theorem resetBlock_regRdata (s : State) : (s.resetBlock).regRdata = s.regRdata := rfl
@[simp] theorem resetBlock_cvNative (s : State) : (s.resetBlock).cvNative = s.cvNative := rfl
@[simp] theorem resetBlock_trace (s : State) : (s.resetBlock).trace = s.trace := rfl
@[simp] theorem resetBlock_ghost (s : State) : (s.resetBlock).ghost = s.ghost := rfl
@[simp] theorem resetBlock_inputs (s : State) : (s.resetBlock).inputs = s.inputs := rfl
@[simp] theorem resetBlock_transport (s : State) : (s.resetBlock).transport = s.transport := rfl
@[simp] theorem resetBlock_pauses (s : State) : (s.resetBlock).pauses = s.pauses := rfl
@[simp] theorem resetBlock_freeDraws (s : State) : (s.resetBlock).freeDraws = s.freeDraws + 1 := rfl

/-! ### `rst_n` falls -/

@[simp] theorem assertReset_cfg (s : State) : (s.assertReset).cfg = s.cfg := rfl
@[simp] theorem assertReset_seq (s : State) : (s.assertReset).seq = .idle := rfl
@[simp] theorem assertReset_work (s : State) : (s.assertReset).work = [] := rfl
@[simp] theorem assertReset_held (s : State) : (s.assertReset).held = none := rfl
@[simp] theorem assertReset_romIdx (s : State) : (s.assertReset).romIdx = 0 := rfl
@[simp] theorem assertReset_runCnt (s : State) : (s.assertReset).runCnt = 0 := rfl
@[simp] theorem assertReset_frameOpen (s : State) : (s.assertReset).frameOpen = false := rfl
@[simp] theorem assertReset_ready (s : State) : (s.assertReset).ready = false := rfl
@[simp] theorem assertReset_errTransport (s : State) : (s.assertReset).errTransport = false := rfl
@[simp] theorem assertReset_errIllegalOp (s : State) : (s.assertReset).errIllegalOp = false := rfl
@[simp] theorem assertReset_warnNotReady (s : State) : (s.assertReset).warnNotReady = false := rfl
@[simp] theorem assertReset_nativeResult (s : State) : (s.assertReset).nativeResult = 0x0000 := rfl
@[simp] theorem assertReset_latches (s : State) : (s.assertReset).latches = Config.freeLatches s.freeDraws := rfl
@[simp] theorem assertReset_nativeLatch (s : State) : (s.assertReset).nativeLatch = Config.freeNativeLatch s.freeDraws := rfl
@[simp] theorem assertReset_dcCfg (s : State) : (s.assertReset).dcCfg = false := rfl
@[simp] theorem assertReset_dcLvl (s : State) : (s.assertReset).dcLvl = false := rfl
@[simp] theorem assertReset_rstCfg (s : State) : (s.assertReset).rstCfg = false := rfl
@[simp] theorem assertReset_rstLvl (s : State) : (s.assertReset).rstLvl = false := rfl
@[simp] theorem assertReset_blCfg (s : State) : (s.assertReset).blCfg = false := rfl
@[simp] theorem assertReset_blLvl (s : State) : (s.assertReset).blLvl = false := rfl
@[simp] theorem assertReset_rstN (s : State) : (s.assertReset).rstN = false := rfl
@[simp] theorem assertReset_opDone (s : State) : (s.assertReset).opDone = false := rfl
@[simp] theorem assertReset_opStatus (s : State) : (s.assertReset).opStatus = s.opStatus := rfl
@[simp] theorem assertReset_regRdata (s : State) : (s.assertReset).regRdata = s.regRdata := rfl
@[simp] theorem assertReset_cvNative (s : State) : (s.assertReset).cvNative = s.cvNative := rfl
@[simp] theorem assertReset_trace (s : State) : (s.assertReset).trace = s.trace := rfl
@[simp] theorem assertReset_ghost (s : State) : (s.assertReset).ghost = (if s.inProgress then s.ghost.corrupt.addFault .abortedByReset else s.ghost) := rfl
@[simp] theorem assertReset_inputs (s : State) : (s.assertReset).inputs = s.inputs := rfl
@[simp] theorem assertReset_transport (s : State) : (s.assertReset).transport = s.transport := rfl
@[simp] theorem assertReset_pauses (s : State) : (s.assertReset).pauses = s.pauses := rfl
@[simp] theorem assertReset_freeDraws (s : State) : (s.assertReset).freeDraws = s.freeDraws + 1 := rfl

/-! ### `rst_n` returns to 1 -/

@[simp] theorem releaseReset_cfg (s : State) : (s.releaseReset).cfg = s.cfg := rfl
@[simp] theorem releaseReset_seq (s : State) : (s.releaseReset).seq = .idle := rfl
@[simp] theorem releaseReset_work (s : State) : (s.releaseReset).work = [] := rfl
@[simp] theorem releaseReset_held (s : State) : (s.releaseReset).held = none := rfl
@[simp] theorem releaseReset_romIdx (s : State) : (s.releaseReset).romIdx = 0 := rfl
@[simp] theorem releaseReset_runCnt (s : State) : (s.releaseReset).runCnt = 0 := rfl
@[simp] theorem releaseReset_frameOpen (s : State) : (s.releaseReset).frameOpen = false := rfl
@[simp] theorem releaseReset_ready (s : State) : (s.releaseReset).ready = false := rfl
@[simp] theorem releaseReset_errTransport (s : State) : (s.releaseReset).errTransport = false := rfl
@[simp] theorem releaseReset_errIllegalOp (s : State) : (s.releaseReset).errIllegalOp = false := rfl
@[simp] theorem releaseReset_warnNotReady (s : State) : (s.releaseReset).warnNotReady = false := rfl
@[simp] theorem releaseReset_nativeResult (s : State) : (s.releaseReset).nativeResult = 0x0000 := rfl
@[simp] theorem releaseReset_latches (s : State) : (s.releaseReset).latches = Config.freeLatches s.freeDraws := rfl
@[simp] theorem releaseReset_nativeLatch (s : State) : (s.releaseReset).nativeLatch = Config.freeNativeLatch s.freeDraws := rfl
@[simp] theorem releaseReset_dcCfg (s : State) : (s.releaseReset).dcCfg = false := rfl
@[simp] theorem releaseReset_dcLvl (s : State) : (s.releaseReset).dcLvl = false := rfl
@[simp] theorem releaseReset_rstCfg (s : State) : (s.releaseReset).rstCfg = false := rfl
@[simp] theorem releaseReset_rstLvl (s : State) : (s.releaseReset).rstLvl = false := rfl
@[simp] theorem releaseReset_blCfg (s : State) : (s.releaseReset).blCfg = false := rfl
@[simp] theorem releaseReset_blLvl (s : State) : (s.releaseReset).blLvl = false := rfl
@[simp] theorem releaseReset_rstN (s : State) : (s.releaseReset).rstN = true := rfl
@[simp] theorem releaseReset_opDone (s : State) : (s.releaseReset).opDone = false := rfl
@[simp] theorem releaseReset_opStatus (s : State) : (s.releaseReset).opStatus = s.opStatus := rfl
@[simp] theorem releaseReset_regRdata (s : State) : (s.releaseReset).regRdata = s.regRdata := rfl
@[simp] theorem releaseReset_cvNative (s : State) : (s.releaseReset).cvNative = s.cvNative := rfl
@[simp] theorem releaseReset_trace (s : State) : (s.releaseReset).trace = s.trace := rfl
@[simp] theorem releaseReset_ghost (s : State) : (s.releaseReset).ghost = s.ghost := rfl
@[simp] theorem releaseReset_inputs (s : State) : (s.releaseReset).inputs = s.inputs := rfl
@[simp] theorem releaseReset_transport (s : State) : (s.releaseReset).transport = s.transport := rfl
@[simp] theorem releaseReset_pauses (s : State) : (s.releaseReset).pauses = s.pauses := rfl
@[simp] theorem releaseReset_freeDraws (s : State) : (s.releaseReset).freeDraws = s.freeDraws + 1 := rfl

end Sys2Proof.Machine.State
end

