-- ==== Sys2Proof/Laws/Engine.lean ====
section
/-! SUPPORT. What running acts can come to, said once: the effect of one act, the ways `perform` can end, what it is when
nothing disturbs it, and what every ending keeps. -/

namespace Sys2Proof.Machine

/-! ### One act -/

/-- What an act does when its call, if it makes one, answers OK. -/
def State.effect (a : Act) (s : State) : State :=
  match a with
  | .pinConfigure p => s.pinConfigure p
  | .pinWrite p l => s.pinWrite p l
  | .tcall c => { s with transport := s.transport.next }.callOk c
  | .wait k ms => s.emit (.wait k ms)
  | .setReady v => { s with ready := v }
  | .clearSticky => s.clearSticky
  | .setIllegalOp => { s with errIllegalOp := true }
  | .emitWarn => s.emit (.warn .notReady)
  | .setWarn => { s with warnNotReady := true }
  | .emitReport => s.emit (.report s.snapshot)
  | .romStart => { s with romIdx := 0 }
  | .romNext => { s with romIdx := min (s.romIdx + 1) s.cfg.romEntries }
  | .runLoad n => { s with runCnt := n }
  | .runNext => { s with runCnt := s.runCnt - 1 }
  | .convert r g b => { s with cvNative := toNative s.cfg.swapRb r g b }
  | .latchNative => { s with nativeLatch := s.cvNative }
  | .storeNative => { s with nativeResult := s.cvNative }
  | .complete status => s.finish status

/-- What is left when call `c` answers FAIL (R110). -/
def State.failCall (c : TCall) (s : State) : State := { s with transport := s.transport.next }.emit (.tFail c)

/-- An act's progress: its effect, unless it is a call that answers otherwise. -/
theorem State.act_cases (a : Act) (s : State) :
    s.act a = .done (s.effect a) ∨
    (∃ c, a = .tcall c ∧ s.transport.answer = .fail ∧ s.act a = .failed (s.failCall c)) ∨
    (∃ c, a = .tcall c ∧ s.transport.answer = .never ∧
      s.act a = .held c { s with transport := s.transport.next }) := by
  cases a with
  | tcall c =>
    cases h : s.transport.answer
    · exact .inl (by simp [State.act, State.tcall, h, State.effect])
    · exact .inr (.inl ⟨c, rfl, rfl, by simp [State.act, State.tcall, h, State.failCall]⟩)
    · exact .inr (.inr ⟨c, rfl, rfl, by simp [State.act, State.tcall, h]⟩)
  | _ => exact .inl rfl

theorem State.act_of_answer_ok {s : State} (a : Act) (h : s.transport.answer = .ok) : s.act a = .done (s.effect a) := by
  rcases State.act_cases a s with h' | ⟨c, -, h', -⟩ | ⟨c, -, h', -⟩
  · exact h'
  · simp [h] at h'
  · simp [h] at h'

/-! ### Several acts -/

/-- `s` comes to `t` by doing all of `as`. -/
def State.effects (as : List Act) (s : State) : State := as.foldl (fun s a => s.countAct.effect a) s

/-- The four ways in which running acts ends: all done; the outside's turn; a failed call; a call never answered. -/
theorem State.perform_cases (as : List Act) (s : State) :
    State.perform as s = s.effects as ∨
    (∃ pre rest ps, as = pre ++ rest ∧ rest ≠ [] ∧ (s.effects pre).pauses = 0 :: ps ∧
      State.perform as s = { s.effects pre with pauses := ps, work := rest ++ (s.effects pre).work }) ∨
    (∃ pre c rest, as = pre ++ .tcall c :: rest ∧
      State.perform as s = ((s.effects pre).countAct.failCall c).abortTransport) ∨
    (∃ pre c rest, as = pre ++ .tcall c :: rest ∧
      State.perform as s = { (s.effects pre).countAct with
        transport := (s.effects pre).transport.next, held := some c,
        work := .tcall c :: rest ++ (s.effects pre).work }) := by
  induction as generalizing s with
  | nil => exact .inl rfl
  | cons a as ih =>
    by_cases hp : ∃ ps, s.pauses = 0 :: ps
    · obtain ⟨ps, hp⟩ := hp
      exact .inr (.inl ⟨[], a :: as, ps, rfl, by simp, hp, by simp [State.perform, hp, State.effects]⟩)
    · have hstep : State.perform (a :: as) s = match s.countAct.act a with
          | .done s' => State.perform as s'
          | .failed s' => s'.abortTransport
          | .held c s' => { s' with held := some c, work := (a :: as) ++ s'.work } := by
        rw [State.perform]
        split
        · next ps h => exact absurd ⟨ps, h⟩ hp
        · rfl
      rcases State.act_cases a s.countAct with h | ⟨c, rfl, -, h⟩ | ⟨c, rfl, -, h⟩
      · rw [hstep, h]
        rcases ih (s.countAct.effect a) with h' | ⟨pre, rest, ps, rfl, hr, hps, h'⟩ | ⟨pre, c, rest, rfl, h'⟩ |
          ⟨pre, c, rest, rfl, h'⟩
        · exact .inl h'
        · exact .inr (.inl ⟨a :: pre, rest, ps, rfl, hr, hps, h'⟩)
        · exact .inr (.inr (.inl ⟨a :: pre, c, rest, rfl, h'⟩))
        · exact .inr (.inr (.inr ⟨a :: pre, c, rest, rfl, h'⟩))
      · exact .inr (.inr (.inl ⟨[], c, as, rfl, by rw [hstep, h]; rfl⟩))
      · refine .inr (.inr (.inr ⟨[], c, as, rfl, ?_⟩))
        rw [hstep, h]
        simp [State.effects]

/-- A property that every act of `as` keeps, that survives the abort and does not read `pauses`, `work`, `held` or the
transport script, holds however the run ends. -/
theorem State.perform_keeps {P : State → Prop} {as : List Act} {s : State} (hs : P s)
    (hact : ∀ a ∈ as, ∀ t, P t → P (t.effect a))
    (hfail : ∀ c t, P t → P ((t.failCall c).abortTransport))
    (hplain : ∀ (t : State) (ps : List Nat) (w : List Act) (h : Option TCall) (tr : Transport), P t →
      P { t with pauses := ps, work := w, held := h, transport := tr }) :
    P (State.perform as s) := by
  have hcount : ∀ t : State, P t → P t.countAct := by
    intro t ht
    have : t.countAct = { t with pauses := t.countAct.pauses } := by
      unfold State.countAct; split <;> rfl
    rw [this]
    exact hplain t t.countAct.pauses t.work t.held t.transport ht
  have heffects : ∀ (pre : List Act) (t : State), (∀ a ∈ pre, a ∈ as) → P t → P (t.effects pre) := by
    intro pre
    induction pre with
    | nil => exact fun _ _ ht => ht
    | cons a pre ih =>
      exact fun t hmem ht => ih _ (fun b hb => hmem b (List.mem_cons_of_mem _ hb))
        (hact a (hmem a List.mem_cons_self) _ (hcount t ht))
  rcases State.perform_cases as s with h | ⟨pre, rest, ps, heq, -, -, h⟩ | ⟨pre, c, rest, heq, h⟩ | ⟨pre, c, rest, heq, h⟩
  · exact h ▸ heffects as s (fun _ ha => ha) hs
  · exact h ▸ hplain _ ps _ _ _ (heffects pre s (by simp +contextual [heq]) hs)
  · exact h ▸ hfail c _ (hcount _ (heffects pre s (by simp +contextual [heq]) hs))
  · exact h ▸ hplain _ _ _ _ _ (hcount _ (heffects pre s (by simp +contextual [heq]) hs))

/-! ### An undisturbed run -/

theorem Transport.answer_of_ok {t : Transport} (h : ∀ a ∈ t.script, a = Answer.ok) (h' : t.rest = .ok) :
    t.answer = .ok := by
  cases hs : t.script with
  | nil => simp [Transport.answer, hs, h']
  | cons a as => simp [Transport.answer, hs, h a (by simp [hs])]

theorem State.countAct_of_undisturbed {s : State} (h : s.Undisturbed) : s.countAct = s := by
  unfold State.countAct
  rw [h.2.2]

@[simp] theorem State.effect_pauses (a : Act) (s : State) : (s.effect a).pauses = s.pauses := by
  cases a <;> simp [State.effect, State.pinConfigure, State.pinWrite]

/-- An undisturbed state stays so: every act only uses up answers. -/
theorem State.Undisturbed.effect {s : State} (h : s.Undisturbed) (a : Act) : (s.effect a).Undisturbed := by
  obtain ⟨h₁, h₂, h₃⟩ := h
  refine ⟨?_, ?_, by simpa using h₃⟩
  · cases a <;> simp [State.effect, State.pinConfigure, State.pinWrite, Transport.next] <;>
      first | exact h₁ | exact fun b hb => h₁ b (List.mem_of_mem_tail hb)
  · cases a <;> simp [State.effect, State.pinConfigure, State.pinWrite, Transport.next] <;> exact h₂

/-- Nothing disturbs the run: every act is done, in order. -/
theorem State.perform_undisturbed {s : State} (h : s.Undisturbed) (as : List Act) :
    State.perform as s = as.foldl (fun s a => s.effect a) s := by
  induction as generalizing s with
  | nil => rfl
  | cons a as ih =>
    have hact := State.act_of_answer_ok (s := s) a (Transport.answer_of_ok h.1 h.2.1)
    rw [State.perform, h.2.2]
    simp only [State.countAct_of_undisturbed h, hact, List.foldl_cons]
    exact ih (h.effect a)

/-- An undisturbed run of two lists of acts is the run of the first, then of the second. -/
theorem State.perform_append {s : State} (h : s.Undisturbed) (as bs : List Act) :
    State.perform (as ++ bs) s = State.perform bs (State.perform as s) := by
  have h' : (State.perform as s).Undisturbed := by
    rw [State.perform_undisturbed h]
    clear bs
    induction as generalizing s with
    | nil => exact h
    | cons a as ih => exact ih (h.effect a)
  rw [State.perform_undisturbed h', State.perform_undisturbed h, State.perform_undisturbed h, List.foldl_append]

/-! ### `rst_n`, and the framing of a run -/

@[simp] theorem State.effect_rstN (a : Act) (s : State) : (s.effect a).rstN = s.rstN := by
  cases a <;> simp [State.effect, State.pinConfigure, State.pinWrite]

/-- Running acts never touches the level of `rst_n`. -/
@[simp] theorem State.perform_rstN (as : List Act) (s : State) : (State.perform as s).rstN = s.rstN :=
  State.perform_keeps (P := fun t => t.rstN = s.rstN) rfl (fun _ _ _ h => by simpa using h)
    (fun _ _ h => by simpa [State.failCall] using h) (fun _ _ _ _ _ h => h)

/-- The events an act's effect appends leave a frame where `Act.events` says: what a Report holds does not matter. -/
theorem State.effect_framing (a : Act) (s : State) : ∃ evs, (s.effect a).trace = s.trace ++ evs ∧
    ∀ f : FrameState, f.run evs = f.run a.events := by
  cases a with
  | emitReport => exact ⟨[.report s.snapshot], rfl, fun f => by cases f <;> rfl⟩
  | pinConfigure p => exact ⟨[.pinCfg p], by simp [State.effect, State.pinConfigure], fun _ => rfl⟩
  | pinWrite p l => exact ⟨[.pin p l], by simp [State.effect, State.pinWrite], fun _ => rfl⟩
  | tcall c => exact ⟨[c.event], rfl, fun _ => rfl⟩
  | wait k ms => exact ⟨[.wait k ms], rfl, fun _ => rfl⟩
  | emitWarn => exact ⟨[.warn .notReady], rfl, fun _ => rfl⟩
  | _ => exact ⟨[], by simp [State.effect], fun _ => rfl⟩

/-- The framing of a concatenation. -/
theorem FrameState.run_append (f : FrameState) (es es' : List Event) :
    f.run (es ++ es') = (f.run es).bind fun f' => f'.run es' := by
  induction es generalizing f with
  | nil => rfl
  | cons e es ih =>
    simp only [List.cons_append, FrameState.run]
    cases f.after e with
    | none => rfl
    | some f' => exact ih f'

end Sys2Proof.Machine
end

