-- ==== Sys2Proof/Laws/PerInstr.lean ====
section
/-! SUPPORT. For every instruction: its encoding, where it has one, carries the fixed fields of its row of
spec/opcode_table.json. -/

namespace Sys2Proof.Laws.Row

/-- The bits of a code as the opcode table numbers them: a descriptor (R80), an address (R85), a wire unit (R86), the
header of a ROM record (R99). -/
def word : Code → Nat
  | .descriptor w => w.toNat
  | .regAddr a => a.toNat
  | .unit u => u.toNat
  | .romRecord (cmd :: ctl :: _) => cmd.toNat * 256 + ctl.toNat
  | .romRecord _ => 0

/-- The fixed fields of the row: lowest bit, width, value. -/
def fixed : Instr → List (Nat × Nat × Nat)
  | .setup => [(60, 4, 0x1), (0, 60, 0)]
  | .update => [(60, 4, 0x2), (0, 60, 0)]
  | .dumpConfig => [(60, 4, 0x3), (0, 60, 0)]
  | .fill _ _ _ => [(60, 4, 0x4), (24, 36, 0)]
  | .pixel _ _ _ _ _ => [(60, 4, 0x5), (56, 4, 0)]
  | .convert _ _ _ => [(60, 4, 0x6), (24, 36, 0)]
  | .illegalOpc0 _ => [(60, 4, 0x0)]
  | .illegalOpc7 _ => [(60, 4, 0x7)]
  | .illegalOpc8F _ => [(63, 1, 1)]
  | .romEntry _ => [(4, 3, 0)]
  | .swreset => [(8, 1, 0), (0, 8, 0x01)]
  | .slpout => [(8, 1, 0), (0, 8, 0x11)]
  | .noron => [(8, 1, 0), (0, 8, 0x13)]
  | .invon => [(8, 1, 0), (0, 8, 0x21)]
  | .dispon => [(8, 1, 0), (0, 8, 0x29)]
  | .caset => [(8, 1, 0), (0, 8, 0x2A)]
  | .raset => [(8, 1, 0), (0, 8, 0x2B)]
  | .ramwr => [(8, 1, 0), (0, 8, 0x2C)]
  | .madctl => [(8, 1, 0), (0, 8, 0x36)]
  | .colmod => [(8, 1, 0), (0, 8, 0x3A)]
  | .tuningCommand _ => [(8, 1, 0)]
  | .wireData _ => [(8, 1, 1)]
  | .read _ | .sendCommand _ | .sendData _ | .sendData16 _ | .sendColorRun _ _ | .setAddressWindow _ _ _ _
  | .regWrite _ | .runInit | .hwResetPulse | .toNative _ _ _ => []

/-- The encoding of `i` under the default codes carries the fixed fields of its row. -/
def Statement (i : Instr) : Prop :=
  ∀ c, encode CmdCodes.default i = some c → ∀ f ∈ fixed i, word c / 2 ^ f.1 % 2 ^ f.2.1 = f.2.2

theorem of_word {i : Instr} {c : Code} (h : encode CmdCodes.default i = some c)
    (hf : ∀ f ∈ fixed i, word c / 2 ^ f.1 % 2 ^ f.2.1 = f.2.2) : Statement i := by
  intro c' h'
  rw [h] at h'
  exact Option.some.inj h' ▸ hf

theorem setup : Statement .setup := of_word rfl (by decide)
theorem update : Statement .update := of_word rfl (by decide)
theorem dumpConfig : Statement .dumpConfig := of_word rfl (by decide)

theorem fill (r g b : Byte) : Statement (.fill r g b) := of_word rfl (by
  simp [fixed, word, toNat_descriptorOf]; omega)

theorem pixel (x y : Half) (r g b : Byte) : Statement (.pixel x y r g b) := of_word rfl (by
  simp [fixed, word, toNat_descriptorOf]; omega)

theorem convert (r g b : Byte) : Statement (.convert r g b) := of_word rfl (by
  simp [fixed, word, toNat_descriptorOf]; omega)

theorem illegalOpc0 (rest : BitVec 60) : Statement (.illegalOpc0 rest) := of_word rfl (by
  simp only [fixed, word, List.mem_singleton, forall_eq]; rw [toNat_append_eq, BitVec.toNat_ofNat]; omega)

theorem illegalOpc7 (rest : BitVec 60) : Statement (.illegalOpc7 rest) := of_word rfl (by
  simp only [fixed, word, List.mem_singleton, forall_eq]; rw [toNat_append_eq, BitVec.toNat_ofNat]; omega)

theorem illegalOpc8F (rest : BitVec 63) : Statement (.illegalOpc8F rest) := of_word rfl (by
  simp only [fixed, word, List.mem_singleton, forall_eq]; rw [toNat_append_eq, BitVec.toNat_ofNat]; omega)

theorem read (a : RegAddr) : Statement (.read a) := of_word rfl (by simp [fixed])
theorem sendCommand (b : Byte) : Statement (.sendCommand b) := fun _ _ => by simp [fixed]
theorem sendData (b : Byte) : Statement (.sendData b) := fun _ _ => by simp [fixed]
theorem sendData16 (w : Half) : Statement (.sendData16 w) := fun _ _ => by simp [fixed]
theorem sendColorRun (c : Half) (n : BitVec 32) : Statement (.sendColorRun c n) := fun _ _ => by simp [fixed]
theorem setAddressWindow (x1 y1 x2 y2 : Half) : Statement (.setAddressWindow x1 y1 x2 y2) := fun _ _ => by simp [fixed]
theorem regWrite (e : RomEntry) : Statement (.regWrite e) := fun _ _ => by simp [fixed]
theorem runInit : Statement .runInit := fun _ _ => by simp [fixed]
theorem hwResetPulse : Statement .hwResetPulse := fun _ _ => by simp [fixed]
theorem toNative (r g b : Byte) : Statement (.toNative r g b) := fun _ _ => by simp [fixed]

theorem romEntry (e : RomEntry) : Statement (.romEntry e) := of_word rfl (by
  simp only [fixed, word, encodeRomEntry, List.cons_append, List.mem_singleton, forall_eq, toNat_ctlByte]
  split <;> omega)

theorem swreset : Statement .swreset := of_word rfl (by decide)
theorem slpout : Statement .slpout := of_word rfl (by decide)
theorem noron : Statement .noron := of_word rfl (by decide)
theorem invon : Statement .invon := of_word rfl (by decide)
theorem dispon : Statement .dispon := of_word rfl (by decide)
theorem caset : Statement .caset := of_word rfl (by decide)
theorem raset : Statement .raset := of_word rfl (by decide)
theorem ramwr : Statement .ramwr := of_word rfl (by decide)
theorem madctl : Statement .madctl := of_word rfl (by decide)
theorem colmod : Statement .colmod := of_word rfl (by decide)

theorem tuningCommand (c : Byte) : Statement (.tuningCommand c) := of_word rfl (by
  simp [fixed, word, toNat_commandUnit]; omega)

theorem wireData (d : Byte) : Statement (.wireData d) := of_word rfl (by
  simp [fixed, word, toNat_dataUnit]; omega)

end Sys2Proof.Laws.Row
end

