-- ==== Sys2Proof/Laws/Rom.lean ====
section
/-! SUPPORT. What the panel makes of the ROM entries of the reference composition: a lone command with its delay, and a
command with one data byte. -/

namespace Sys2Proof.Machine

/-- A panel that takes bytes: LIVE, not held in reset, no half pixel, nothing to settle. -/
abbrev Panel.TakesBytes (p : Panel) : Prop :=
  p.status = .live ∧ p.rstHeld = false ∧ p.pend = none ∧ p.settle = 0

/-- A command that opens no stream, to a panel that takes bytes (R58). -/
theorem Ghost.byte_command {codes : CmdCodes} {c : Byte} {g : Ghost} (h : g.panel.TakesBytes) (hc : c ≠ codes.ramwr) :
    g.byte codes false c
      = { g with panel := { g.panel.takeCommand codes c with settle := settleBound codes c } } := by
  obtain ⟨h₁, h₂, h₃, h₄⟩ := h
  simp [Ghost.byte, h₁, h₂, Ghost.checkSettle, h₄, Ghost.command, Ghost.dropOddByte, h₃, hc, Ghost.setSettle]

/-- The entries that are a lone command with a delay that meets its bound. -/
theorem Ghost.observeAll_lone {codes : CmdCodes} {c : Byte} {d : Half} {g : Ghost} (dc : Bool)
    (h : g.panel.TakesBytes) (hc : c ≠ codes.ramwr) (hd : settleBound codes c ≤ d.toNat) :
    Ghost.observeAll codes dc (regWriteEvents ⟨c, [], some d⟩) g
      = { g with panel := { g.panel.takeCommand codes c with settle := 0 } } := by
  simp [regWriteEvents, commandEvents, Ghost.observeAll, dcAfter, Ghost.observe, Ghost.byte_command h hc,
    Nat.sub_eq_zero_of_le hd]

/-- The entries that write one data byte to a command with no effect of its own but the pixel format. -/
theorem Ghost.observeAll_single {codes : CmdCodes} {c b : Byte} {g : Ghost} (dc : Bool) (h : g.panel.TakesBytes)
    (hw : c ≠ codes.ramwr) (hs : settleBound codes c = 0) (hsw : c ≠ codes.swreset) (hca : c ≠ codes.caset)
    (hra : c ≠ codes.raset) :
    Ghost.observeAll codes dc (regWriteEvents ⟨c, [b], none⟩) g
      = { g with panel := { g.panel with
          cmd := some c, args := [b], regs := Table.put c.toNat [b] g.panel.regs, settle := 0,
          colmod := if c = codes.colmod then some b else g.panel.colmod } } := by
  obtain ⟨h₁, h₂, h₃, h₄⟩ := h
  simp only [regWriteEvents, commandEvents, dataEvents, List.map_cons, List.map_nil, List.flatten_cons, List.flatten_nil,
    List.append_nil, List.cons_append, List.nil_append, Ghost.observeAll, dcAfter, Ghost.observe,
    Ghost.byte_command ⟨h₁, h₂, h₃, h₄⟩ hw, hs]
  simp [Ghost.byte, Panel.takeCommand, hsw, h₁, h₂, Ghost.checkSettle, Ghost.data, hw, Ghost.paramByte,
    Panel.recordParam, hca, hra, Ghost.colmodParam]
  split <;> simp

/-- What a lone entry leaves of a panel that takes bytes. -/
theorem Ghost.lone_keeps {codes : CmdCodes} {c : Byte} {d : Half} {g : Ghost} (dc : Bool) (h : g.panel.TakesBytes)
    (hc : c ≠ codes.ramwr) (hd : settleBound codes c ≤ d.toNat) :
    (Ghost.observeAll codes dc (regWriteEvents ⟨c, [], some d⟩) g).panel.TakesBytes ∧
    (Ghost.observeAll codes dc (regWriteEvents ⟨c, [], some d⟩) g).faults = g.faults ∧
    (c ≠ codes.swreset →
      (Ghost.observeAll codes dc (regWriteEvents ⟨c, [], some d⟩) g).panel.colmod = g.panel.colmod) := by
  rw [Ghost.observeAll_lone dc h hc hd]
  unfold Panel.takeCommand
  split
  · next hs => exact ⟨⟨h.1, h.2.1, rfl, rfl⟩, rfl, fun hn => absurd hs hn⟩
  · exact ⟨⟨h.1, h.2.1, h.2.2.1, rfl⟩, rfl, fun _ => rfl⟩

/-- What an entry with one data byte leaves of a panel that takes bytes. -/
theorem Ghost.single_keeps {codes : CmdCodes} {c b : Byte} {g : Ghost} (dc : Bool) (h : g.panel.TakesBytes)
    (hw : c ≠ codes.ramwr) (hs : settleBound codes c = 0) (hsw : c ≠ codes.swreset) (hca : c ≠ codes.caset)
    (hra : c ≠ codes.raset) :
    (Ghost.observeAll codes dc (regWriteEvents ⟨c, [b], none⟩) g).panel.TakesBytes ∧
    (Ghost.observeAll codes dc (regWriteEvents ⟨c, [b], none⟩) g).faults = g.faults ∧
    (Ghost.observeAll codes dc (regWriteEvents ⟨c, [b], none⟩) g).panel.colmod
      = if c = codes.colmod then some b else g.panel.colmod := by
  rw [Ghost.observeAll_single dc h hw hs hsw hca hra]
  exact ⟨⟨h.1, h.2.1, h.2.2.1, rfl⟩, rfl, rfl⟩

end Sys2Proof.Machine
end

