-- ==== Sys2Proof/Laws/Step.lean ====
section
/-! SUPPORT. What an instruction and a step can come to, said once: every next state is reached by running acts, by a
register read, by a change of `rst_n` or by waiting. -/

namespace Sys2Proof.Machine

/-- The acts of instruction `i` begun in state `s`; none for a register read, which is no operation. -/
def actsOf (s : State) : Instr → List Act
  | .setup => match initRom s.cfg with
    | none => []
    | some rom => setupActs s.cfg rom
  | .update => updateActs s
  | .dumpConfig => [.emitReport, .complete statusOk]
  | .fill r g b => fillActs s r g b
  | .pixel x y r g b => pixelActs s x y r g b
  | .convert r g b => [.convert r g b, .storeNative, .complete statusOk]
  | .illegalOpc0 _ | .illegalOpc7 _ | .illegalOpc8F _ => [.setIllegalOp, .complete statusErrIllegalOp]
  | .read _ => []
  | .sendCommand b | .tuningCommand b => sendCommandActs b
  | .sendData b | .wireData b => sendDataActs b
  | .sendData16 w => sendData16Acts w
  | .sendColorRun c n => sendColorRunActs c n
  | .setAddressWindow x₁ y₁ x₂ y₂ => setAddressWindowActs s.cfg.codes x₁ y₁ x₂ y₂
  | .regWrite e => regWriteActs e
  | .runInit => match initRom s.cfg with
    | none => []
    | some rom => runInitActs rom
  | .hwResetPulse => if s.cfg.hasRst then hwResetPulseActs s.cfg else []
  | .toNative r g b => [.convert r g b]
  | .romEntry e => romEntryActs e
  | .swreset => sendCommandActs s.cfg.codes.swreset
  | .slpout => sendCommandActs s.cfg.codes.slpout
  | .noron => sendCommandActs s.cfg.codes.noron
  | .invon => sendCommandActs s.cfg.codes.invon
  | .dispon => sendCommandActs s.cfg.codes.dispon
  | .caset => sendCommandActs s.cfg.codes.caset
  | .raset => sendCommandActs s.cfg.codes.raset
  | .ramwr => sendCommandActs s.cfg.codes.ramwr
  | .madctl => sendCommandActs s.cfg.codes.madctl
  | .colmod => sendCommandActs s.cfg.codes.colmod

/-- Where the acts of an instruction start from: the state itself (a micro-operation), or the state after acceptance (a
host operation, and an illegal descriptor, which writes no latch). -/
inductive State.Begins (s : State) : State → Prop where
  | micro : s.Begins s
  | accepted (l : Latches) : s.accepts = true → s.Begins (s.accept l)
  | rejected : s.accepts = true → s.Begins { s with seq := .busy, opDone := false }

/-- When the block accepts (R190, R240). -/
theorem State.accepts_iff (s : State) : s.accepts = true ↔ s.rstN = true ∧ s.inProgress = false := by
  simp [State.accepts]

theorem State.operate_cases {l : Latches} {acts : List Act} {s t : State} (h : s.operate l acts = .next t) :
    (s.accepts = false ∧ t = s) ∨ (s.accepts = true ∧ t = State.perform acts (s.accept l)) := by
  unfold State.operate at h
  split at h <;> simp_all

theorem State.rejectDescriptor_cases {s t : State} (h : s.rejectDescriptor = .next t) :
    (s.accepts = false ∧ t = s) ∨ (s.accepts = true ∧
      t = State.perform [.setIllegalOp, .complete statusErrIllegalOp] { s with seq := .busy, opDone := false }) := by
  unfold State.rejectDescriptor at h
  split at h <;> simp_all

/-- Every next state of an instruction: nothing done (a host operation's request waits), a register read, or its acts
run from where it begins. -/
theorem exec_cases {i : Instr} {s t : State} (h : exec i s = .next t) :
    t = s ∨ (∃ a, i = .read a ∧ t = { s with regRdata := s.regValue a }) ∨
    ∃ s', s.Begins s' ∧ t = State.perform (actsOf s i) s' := by
  have op : ∀ {l : Latches} {acts : List Act}, s.operate l acts = .next t → acts = actsOf s i →
      t = s ∨ (∃ a, i = .read a ∧ t = { s with regRdata := s.regValue a }) ∨
      ∃ s', s.Begins s' ∧ t = State.perform (actsOf s i) s' := by
    rintro l acts h' rfl
    rcases State.operate_cases h' with ⟨-, rfl⟩ | ⟨hp, ht⟩
    · exact .inl rfl
    · exact .inr (.inr ⟨_, .accepted l hp, ht⟩)
  have illegal : s.rejectDescriptor = .next t → actsOf s i = [.setIllegalOp, .complete statusErrIllegalOp] →
      t = s ∨ (∃ a, i = .read a ∧ t = { s with regRdata := s.regValue a }) ∨
      ∃ s', s.Begins s' ∧ t = State.perform (actsOf s i) s' := by
    intro h' hi
    rcases State.rejectDescriptor_cases h' with ⟨-, rfl⟩ | ⟨hp, ht⟩
    · exact .inl rfl
    · exact .inr (.inr ⟨_, .rejected hp, hi ▸ ht⟩)
  have micro : s.micro (actsOf s i) = .next t →
      t = s ∨ (∃ a, i = .read a ∧ t = { s with regRdata := s.regValue a }) ∨
      ∃ s', s.Begins s' ∧ t = State.perform (actsOf s i) s' := by
    intro h'
    exact .inr (.inr ⟨s, .micro, by simpa [State.micro] using h'.symm⟩)
  cases i with
  | setup =>
    cases hr : initRom s.cfg with
    | none => simp [exec, execSetup, hr] at h
    | some rom => simp only [exec, execSetup, hr] at h; exact op h (by simp [actsOf, hr])
  | runInit =>
    cases hr : initRom s.cfg with
    | none => simp [exec, execRunInit, hr] at h
    | some rom => simp only [exec, execRunInit, hr] at h; exact micro (by simpa [actsOf, hr] using h)
  | read a => exact .inr (.inl ⟨a, rfl, by simpa [exec, execRead] using h.symm⟩)
  | illegalOpc0 u => exact illegal h rfl
  | illegalOpc7 u => exact illegal h rfl
  | illegalOpc8F u => exact illegal h rfl
  | update => exact op h rfl
  | dumpConfig => exact op h rfl
  | fill r g b => exact op h rfl
  | pixel x y r g b => exact op h rfl
  | convert r g b => exact op h rfl
  | _ => exact micro h

theorem State.continueWork_cases (s : State) :
    s.continueWork = .stuck ∨ (s.held = none ∧ s.continueWork = .resume s) := by
  unfold State.continueWork
  split <;> simp_all

/-- A code that is taken: an instruction, a bad record, or a descriptor the decoder rejects. -/
theorem State.take_cases (c : Code) (s : State) :
    (∃ i, decode s.cfg.codes c = .ok i ∧ State.take c s = .run i s) ∨ State.take c s = .badRecord ∨
    ∃ w r, c = .descriptor w ∧ decodeDescriptor w = .rejected r ∧ State.take c s = .illegal s := by
  unfold State.take
  cases h : decode s.cfg.codes c with
  | ok i => exact .inl ⟨i, rfl, rfl⟩
  | rejected r =>
    cases c with
    | descriptor w => exact .inr (.inr ⟨w, r, rfl, h, rfl⟩)
    | romRecord bytes => exact .inr (.inl rfl)
    | regAddr a => simp [decode] at h
    | unit u => simp [decode] at h

/-- What can be selected. -/
inductive State.Selects (s : State) : Fetch → Prop where
  | driveReset (l : Bool) (rest : List Input) :
      s.inputs = .rstN l :: rest → s.Selects (.driveReset l { s with inputs := rest })
  | read (a : RegAddr) (rest : List Input) :
      s.inputs = .code (.regAddr a) :: rest → s.Selects (.run (.read a) { s with inputs := rest })
  | run (c : Code) (i : Instr) (rest : List Input) : s.inputs = .code c :: rest → s.accepts = true →
      decode s.cfg.codes c = .ok i → s.Selects (.run i { s with inputs := rest })
  | illegal (w : Descriptor) (r : Reject) (rest : List Input) : s.inputs = .code (.descriptor w) :: rest →
      s.accepts = true → decodeDescriptor w = .rejected r → s.Selects (.illegal { s with inputs := rest })
  | badRecord : s.Selects .badRecord
  | stuck : s.Selects .stuck
  | resume : s.rstN = true → s.inProgress = true → s.held = none → s.Selects (.resume s)
  | passResume (rest : List Input) : s.inputs = .pass :: rest → s.rstN = true → s.inProgress = true → s.held = none →
      s.Selects (.resume { s with inputs := rest })
  | passWait (rest : List Input) : s.inputs = .pass :: rest → s.Selects (.wait { s with inputs := rest })
  | waitReset : s.rstN = false → s.Selects (.wait s)
  | waitInput : s.accepts = true → s.inputs = [] → s.Selects (.wait s)

theorem State.continueWork_selects {s : State} (hr : s.rstN = true) (h : s.inProgress = true) :
    s.Selects s.continueWork := by
  rcases s.continueWork_cases with h' | ⟨hh, h'⟩ <;> rw [h']
  · exact .stuck
  · exact .resume hr h hh

theorem State.passTurn_selects {s : State} {rest : List Input} (hi : s.inputs = .pass :: rest) :
    s.Selects (State.passTurn { s with inputs := rest }) := by
  unfold State.passTurn
  split
  · next h =>
    simp only [Bool.and_eq_true, Option.isNone_iff_eq_none] at h
    exact .passResume rest hi h.1.1 h.1.2 h.2
  · exact .passWait rest hi

theorem State.take_selects {c : Code} {rest : List Input} {s : State} (hi : s.inputs = .code c :: rest)
    (ha : s.accepts = true) : s.Selects (State.take c { s with inputs := rest }) := by
  rcases State.take_cases c { s with inputs := rest } with ⟨i, hd, h⟩ | h | ⟨w, r, rfl, hd, h⟩ <;> rw [h]
  · exact .run c i rest hi ha hd
  · exact .badRecord
  · exact .illegal w r rest hi ha hd

theorem State.selects (s : State) : s.Selects s.select := by
  unfold State.select
  split
  · next l rest h => exact .driveReset l rest h
  · next a rest h => exact .read a rest h
  · next rest h => exact State.passTurn_selects h
  · next c rest _ hi =>
    cases hr : s.rstN with
    | false => exact .waitReset hr
    | true =>
      cases hp : s.inProgress with
      | true => simpa [hr, hp] using State.continueWork_selects hr hp
      | false => simpa [hr, hp] using State.take_selects hi ((State.accepts_iff s).mpr ⟨hr, hp⟩)
  · next hi =>
    cases hr : s.rstN with
    | false => exact .waitReset hr
    | true =>
      cases hp : s.inProgress with
      | true => simpa [hr, hp] using State.continueWork_selects hr hp
      | false => exact .waitInput ((State.accepts_iff s).mpr ⟨hr, hp⟩) hi

/-- Every next state of the machine. -/
theorem step_cases {s t : State} (h : step s = .next t) :
    (∃ l rest, s.inputs = .rstN l :: rest ∧ t = { s with opDone := false, inputs := rest }.driveReset l) ∨
    (∃ a rest, s.inputs = .code (.regAddr a) :: rest ∧
      exec (.read a) { s with opDone := false, inputs := rest } = .next t) ∨
    (∃ c i rest, s.inputs = .code c :: rest ∧ s.accepts = true ∧ decode s.cfg.codes c = .ok i ∧
      exec i { s with opDone := false, inputs := rest } = .next t) ∨
    (∃ w r rest, s.inputs = .code (.descriptor w) :: rest ∧ s.accepts = true ∧ decodeDescriptor w = .rejected r ∧
      { s with opDone := false, inputs := rest }.rejectDescriptor = .next t) ∨
    (∃ ins, (ins = s.inputs ∨ s.inputs = .pass :: ins) ∧ s.rstN = true ∧ s.inProgress = true ∧ s.held = none ∧
      t = { s with opDone := false, inputs := ins }.resume) ∨
    ∃ ins, (ins = s.inputs ∧ (s.rstN = false ∨ s.accepts = true ∧ s.inputs = []) ∨ s.inputs = .pass :: ins) ∧
      t = { s with opDone := false, inputs := ins } := by
  cases hr : romAdmissible s.cfg with
  | false => simp [step, State.fetch, hr] at h
  | true =>
    have hf : s.fetch = { s with opDone := false }.select := by simp [State.fetch, hr]
    rw [step, hf] at h
    have hs := State.selects { s with opDone := false }
    generalize ({ s with opDone := false } : State).select = f at h hs
    cases hs with
    | driveReset l rest hi => exact .inl ⟨l, rest, hi, (Host.Outcome.next.inj h).symm⟩
    | read a rest hi => exact .inr (.inl ⟨a, rest, hi, h⟩)
    | run c i rest hi ha hd => exact .inr (.inr (.inl ⟨c, i, rest, hi, ha, hd, h⟩))
    | illegal w r rest hi ha hd => exact .inr (.inr (.inr (.inl ⟨w, r, rest, hi, ha, hd, h⟩)))
    | badRecord => cases h
    | stuck => cases h
    | resume hn hp hh =>
      exact .inr (.inr (.inr (.inr (.inl ⟨s.inputs, .inl rfl, hn, hp, hh, (Host.Outcome.next.inj h).symm⟩))))
    | passResume rest hi hn hp hh =>
      exact .inr (.inr (.inr (.inr (.inl ⟨rest, .inr hi, hn, hp, hh, (Host.Outcome.next.inj h).symm⟩))))
    | passWait rest hi => exact .inr (.inr (.inr (.inr (.inr ⟨rest, .inr hi, (Host.Outcome.next.inj h).symm⟩))))
    | waitReset hn =>
      exact .inr (.inr (.inr (.inr (.inr ⟨s.inputs, .inl ⟨rfl, .inl hn⟩, (Host.Outcome.next.inj h).symm⟩))))
    | waitInput ha hi =>
      exact .inr (.inr (.inr (.inr (.inr ⟨s.inputs, .inl ⟨rfl, .inr ⟨ha, hi⟩⟩, (Host.Outcome.next.inj h).symm⟩))))

/-- What a drive of `rst_n` can do (R240, R242). -/
theorem State.driveReset_cases (l : Bool) (s : State) :
    (s.rstN = l ∧ s.driveReset l = s) ∨ (s.rstN = true ∧ l = false ∧ s.driveReset l = s.assertReset) ∨
    (s.rstN = false ∧ l = true ∧ s.driveReset l = s.releaseReset) := by
  unfold State.driveReset
  cases s.rstN <;> cases l <;> simp

end Sys2Proof.Machine
end

