-- ==== Sys2Proof/Tests/Slice0.lean ====
section
/-! SUPPORT. The model's own tests, expected values from spec/95_test_vectors.md or worked out by hand from the rules named,
and for every statement with hypotheses a witness that meets them. -/

namespace Sys2Proof.Machine.Tests

/-- What `f` sees in the next state, if there is one. -/
def seen {α : Type} (f : State → α) : Host.Outcome State Fault Refusal → Option α
  | .next s => some (f s)
  | _ => none

/-- Ready, with a panel that takes pixels: what a SETUP leaves, by hand, for both straps 0. -/
def up : State :=
  { State.reset with
    cfg := { Config.reference with hasRst := false, hasBl := false }
    ready := true
    dcCfg := true
    romIdx := 7
    ghost := ⟨{ Panel.initial with cmd := some 0x29, colmod := some 0x55, regs := [(0x36, [0x08]), (0x3A, [0x55])] }, []⟩ }

/-! ### Well-formedness refuses (R99, R98) -/

theorem test_wf_refuses_sixteen_data_bytes :
    (Instr.romEntry ⟨0xB0, List.replicate 16 0, none⟩).wellFormed CmdCodes.default = false ∧
    (Instr.romEntry ⟨0xB0, List.replicate 15 0, none⟩).wellFormed CmdCodes.default = true := by decide

theorem test_wf_refuses_zero_delay :
    (Instr.regWrite ⟨0x01, [], some 0⟩).wellFormed CmdCodes.default = false ∧
    (Instr.regWrite ⟨0x01, [], some 0xFFFF⟩).wellFormed CmdCodes.default = true := by decide

theorem test_wf_refuses_a_named_code_as_tuning_command :
    (Instr.tuningCommand 0x2C).wellFormed CmdCodes.default = false ∧
    (Instr.tuningCommand 0xB0).wellFormed CmdCodes.default = true := by decide

/-! ### Decoding, the words written out bit by bit (R80, R84 to R86, R99; spec/95 section 2.1) -/

theorem test_decode_setup : decodeDescriptor (0b0001#4 ++ 0#60) = .ok .setup := by decide
theorem test_decode_update : decodeDescriptor (0b0010#4 ++ 0#60) = .ok .update := by decide
theorem test_decode_dump_config : decodeDescriptor (0b0011#4 ++ 0#60) = .ok .dumpConfig := by decide
theorem test_decode_fill : decodeDescriptor (0b0100#4 ++ 0#36 ++ 0b11111111#8 ++ 0b00000001#8 ++ 0b10000000#8)
    = .ok (.fill 255 1 128) := by decide
theorem test_decode_pixel :
    decodeDescriptor (0b0101#4 ++ 0b0000#4 ++ 0b1000000000000000#16 ++ 0b0000000010000000#16 ++ 1#8 ++ 2#8 ++ 3#8)
    = .ok (.pixel (-32768) 128 1 2 3) := by decide
theorem test_decode_convert : decodeDescriptor (0b0110#4 ++ 0#36 ++ 0x12#8 ++ 0x34#8 ++ 0x56#8)
    = .ok (.convert 0x12 0x34 0x56) := by decide
theorem test_decode_illegal_opc0 : decodeDescriptor 0x0000000000000001 = .ok (.illegalOpc0 1) := by decide
theorem test_decode_illegal_opc7 : decodeDescriptor 0x7000000000000000 = .ok (.illegalOpc7 0) := by decide
theorem test_decode_illegal_opc8_to_f : decodeDescriptor 0x8000000000000000 = .ok (.illegalOpc8F 0) ∧
    decodeDescriptor 0xF000000000000000 = .ok (.illegalOpc8F 0x7000000000000000) := by decide

/-- The ILLEGAL rows of spec/95 section 2.1 with a non-zero field that must be 0. -/
theorem test_decode_rejects_reserved_fields :
    [0x1000000000000001, 0x2000000000000100, 0x3100000000000000, 0x4000000001000000, 0x4100000000000000,
      0x5100000000000000, 0x6000010000000000].map decodeDescriptor = List.replicate 7 (.rejected .reservedField) := by
  decide

theorem test_decode_read : decode CmdCodes.default (.regAddr 0b0110) = .ok (.read 6) := by decide
theorem test_decode_swreset : decode CmdCodes.default (.unit 0b000000001) = .ok .swreset := by decide
theorem test_decode_slpout : decode CmdCodes.default (.unit 0b000010001) = .ok .slpout := by decide
theorem test_decode_noron : decode CmdCodes.default (.unit 0b000010011) = .ok .noron := by decide
theorem test_decode_invon : decode CmdCodes.default (.unit 0b000100001) = .ok .invon := by decide
theorem test_decode_dispon : decode CmdCodes.default (.unit 0b000101001) = .ok .dispon := by decide
theorem test_decode_caset : decode CmdCodes.default (.unit 0b000101010) = .ok .caset := by decide
theorem test_decode_raset : decode CmdCodes.default (.unit 0b000101011) = .ok .raset := by decide
theorem test_decode_ramwr : decode CmdCodes.default (.unit 0b000101100) = .ok .ramwr := by decide
theorem test_decode_madctl : decode CmdCodes.default (.unit 0b000110110) = .ok .madctl := by decide
theorem test_decode_colmod : decode CmdCodes.default (.unit 0b000111010) = .ok .colmod := by decide
theorem test_decode_tuning_command : decode CmdCodes.default (.unit 0b010110000) = .ok (.tuningCommand 0xB0) := by decide
theorem test_decode_wire_data : decode CmdCodes.default (.unit 0b100101100) = .ok (.wireData 0x2C) := by decide

/-- The records of spec/95 section 2.4, and the two ways a lone record is ill-formed. -/
theorem test_decode_rom_records :
    decode CmdCodes.default (.romRecord [0b00111010, 0b00000001, 0b01010101]) = .ok (.romEntry ⟨0x3A, [0x55], none⟩) ∧
    decode CmdCodes.default (.romRecord [0xB1, 0b10000000, 0x01, 0x05]) = .ok (.romEntry ⟨0xB1, [], some 0x0105⟩) ∧
    decode CmdCodes.default (.romRecord [0xB0, 0b00010000]) = .rejected .romReservedCtl ∧
    decode CmdCodes.default (.romRecord [0xB0, 0x00, 0x00]) = .rejected .romTrailing := by decide

/-- A micro-operation has no encoding (R109). -/
theorem test_micro_operations_have_no_encoding :
    [Instr.sendCommand 0, .sendData 0, .sendData16 0, .sendColorRun 0 0, .setAddressWindow 0 0 0 0,
      .regWrite ⟨0, [], none⟩, .runInit, .hwResetPulse, .toNative 0 0 0].map (encode CmdCodes.default)
    = List.replicate 9 none := by decide

/-- The encoder, against the words of spec/95 section 2.1. -/
theorem test_encode_words :
    encode CmdCodes.default (.pixel 10 20 255 0 0) = some (.descriptor 0x50000A0014FF0000) ∧
    encode CmdCodes.default (.fill 255 0 0) = some (.descriptor 0x4000000000FF0000) ∧
    encode CmdCodes.default (.romEntry ⟨0x01, [], some 120⟩) = some (.romRecord [0x01, 0x80, 0x00, 0x78]) := by decide

/-- The opcode table's numbering. -/
theorem test_table_words :
    decodeTableWord 64 0x50000A0014FF0000 = some (.pixel 10 20 255 0 0) ∧
    decodeTableWord 8 0xF = some (.read 15) ∧ decodeTableWord 16 0x02C = some .ramwr ∧
    decodeTableWord 16 0x1FF = some (.wireData 0xFF) ∧
    decodeTableWord 16 0x3A01 = some (.romEntry ⟨0x3A, [0], none⟩) ∧ decodeTableWord 16 0x3A10 = none := by decide

/-! ### The ROM (spec/95 section 2.4) -/

theorem test_reference_rom :
    initRom Config.reference = some (referenceRom CmdCodes.default false SettleTimes.reference []) := by decide

/-- R132 (a), (c) and R102: a SWRESET delay of 100, COLMOD data 0x66, a byte too many. -/
theorem test_inadmissible_roms :
    romAdmissible { Config.reference with romImage := Config.reference.romImage.set 3 0x64 } = false ∧
    romAdmissible { Config.reference with romImage := Config.reference.romImage.set 10 0x66 } = false ∧
    romAdmissible { Config.reference with romImage := Config.reference.romImage ++ [0x00] } = false := by decide

/-! ### Host operations -/

/-- SETUP with both straps 1: 52 events, STATUS 0x0001, PINS 0x003D (spec/95 section 2.7). -/
theorem test_setup_completes :
    seen (fun t => (t.opStatus, t.trace.length, t.regValue 3, t.regValue 5, t.romIdx))
      (step (State.reset.withFetchWord 64 0x1000000000000000)) = some (0, 52, 0x0001, 0x003D, 7) := by decide

/-- SETUP whose third call fails (spec/95 section 2.8). -/
theorem test_setup_aborts :
    seen (fun t => (t.opStatus, t.trace.length, t.regValue 3, t.regValue 5, t.frameOpen))
      (exec .setup { State.reset with transport := ⟨[.ok, .ok, .fail], .ok⟩ })
    = some (2, 12, 0x0002, 0x000D, true) := by decide

theorem test_update :
    seen (fun t => (t.opStatus, t.trace, t.regValue 3)) (step (State.reset.withFetchWord 64 0x2000000000000000))
      = some (1, [.warn .notReady], 0x0008) ∧
    seen (fun t => (t.opStatus, t.trace, t.regValue 3)) (exec .update up) = some (0, [], 0x0001) := by decide

/-- From reset with HAS_BL = 0 (spec/95 section 2.7). -/
theorem test_dump_config :
    seen (fun t => (t.opStatus, t.trace))
      (exec .dumpConfig { State.reset with cfg := { Config.reference with hasBl := false } })
    = some (0, [.report [0x00F0, 0x00F0, 0x0001, 0x0010, 0x0001, 0x0000, 0x0000, 0x0008]]) := by decide

/-- FILL before SETUP (spec/95 section 1.6). -/
theorem test_fill_not_ready :
    seen (fun t => (t.opStatus, t.trace, t.regValue 3)) (step (State.reset.withFetchWord 64 0x4000000000FF0000))
      = some (0, [], 0x0000) := by decide

/-- FILL whose 30th call fails (spec/95 section 2.8). -/
theorem test_fill_aborts :
    seen (fun t => (t.opStatus, t.trace.length, t.runCnt, t.frameOpen, t.ghost.gramAt 0 0))
      (State.operate (colorLatches 4 0 0 255) (paintActs up.cfg 0 0 239 239 3 0 0 255)
        { up with transport := ⟨List.replicate 29 .ok ++ [.fail], .ok⟩ })
    = some (2, 38, 0, true, some 0x001F) := by decide

/-- PIXEL 10, 20, 0, 0, 255 (spec/95 section 2.5). -/
theorem test_pixel_writes :
    seen (fun t => (wire t.trace, t.trace.length)) (exec (.pixel 10 20 0 0 255) up)
    = some ([(false, 0x2A), (true, 0x00), (true, 0x0A), (true, 0x00), (true, 0x0A), (false, 0x2B), (true, 0x00),
        (true, 0x14), (true, 0x00), (true, 0x14), (false, 0x2C), (true, 0x00), (true, 0x1F)], 37) ∧
    seen (fun t => (t.opStatus, t.ghost.gramAt 10 20, t.ghost.panel.cur, t.ghost.faults))
      (exec (.pixel 10 20 0 0 255) up) = some (0, some 0x001F, .done, []) := by decide

/-- PIXEL just outside and at the corner (spec/95 section 1.4). -/
theorem test_pixel_bounds :
    [((-1 : Half), (0 : Half)), (0, -1), (240, 0), (0, 240), (-32768, -32768), (32767, 32767), (239, 239)].map
      (fun p => seen (fun t => t.trace.length) (exec (.pixel p.1 p.2 0 0 0) up))
    = [some 0, some 0, some 0, some 0, some 0, some 0, some 37] := by decide

theorem test_convert :
    seen (fun t => (t.opStatus, t.trace, t.regValue 6)) (step (State.reset.withFetchWord 64 0x6000000000123456))
      = some (0, [], 0x11AA) := by decide

theorem test_illegal_rows :
    [Instr.illegalOpc0 0, .illegalOpc7 0, .illegalOpc8F 0].map
      (fun i => seen (fun t => (t.opStatus, t.trace, t.regValue 3)) (exec i State.reset))
    = List.replicate 3 (some (3, [], 0x0004)) := by decide

/-- An ILLEGAL word the decoder rejects (spec/95 section 2.1). -/
theorem test_illegal_reserved_field :
    seen (fun t => (t.opStatus, t.trace, t.regValue 3)) (step (State.reset.withFetchWord 64 0x1000000000000001))
      = some (3, [], 0x0004) := by decide

/-- CONFIG and MADCTL from reset, and a reserved address (spec/95 section 2.2). -/
theorem test_read :
    seen (fun t => t.regRdata) (step (State.reset.withFetchWord 8 0x4)) = some 0x0003 ∧
    seen (fun t => t.regRdata) (exec (.read 0x7) State.reset) = some 0x0008 ∧
    seen (fun t => t.regRdata) (exec (.read 0x8) State.reset) = some 0x0000 := by decide

/-! ### Micro-operations (spec/95 sections 2.3, 2.4, 2.5, 2.6) -/

theorem test_send_command :
    seen (fun t => t.trace) (exec (.sendCommand 0x2C) up)
      = some [.pin .dc false, .frameBegin, .byte 0x2C, .frameEnd] := by decide

/-- END fails: the byte is out, the frame stays open. -/
theorem test_send_command_aborts :
    seen (fun t => (t.trace, t.frameOpen, t.ready))
      (exec (.sendCommand 0x2C) { up with transport := ⟨[.ok, .ok, .fail], .ok⟩ })
    = some ([.pin .dc false, .frameBegin, .byte 0x2C, .tFail .frameEnd], true, false) := by decide

theorem test_send_data :
    seen (fun t => t.trace) (exec (.sendData 0x55) up)
      = some [.pin .dc true, .frameBegin, .byte 0x55, .frameEnd] := by decide

theorem test_send_data16 :
    seen (fun t => t.trace) (exec (.sendData16 0x1234) up)
      = some [.pin .dc true, .frameBegin, .byte 0x12, .byte 0x34, .frameEnd] := by decide

theorem test_send_color_run :
    seen (fun t => t.trace) (exec (.sendColorRun 0xF800 0) up) = some [.pin .dc true, .frameBegin, .frameEnd] ∧
    seen (fun t => t.trace) (exec (.sendColorRun 0xF800 2) up) = some [.pin .dc true, .frameBegin, .byte 0xF8,
      .byte 0x00, .byte 0xF8, .byte 0x00, .frameEnd] := by decide

/-- The fifth call of a run of three fails. -/
theorem test_send_color_run_aborts :
    seen (fun t => (t.trace, t.runCnt, t.frameOpen))
      (exec (.sendColorRun 0xF800 3) { up with transport := ⟨[.ok, .ok, .ok, .ok, .fail], .ok⟩ })
    = some ([.pin .dc true, .frameBegin, .byte 0xF8, .byte 0x00, .byte 0xF8, .tFail (.write 0x00)], 0, true) := by decide

theorem test_set_address_window :
    seen (fun t => (wire t.trace, t.trace.length)) (exec (.setAddressWindow 0 0 239 239) up)
    = some ([(false, 0x2A), (true, 0x00), (true, 0x00), (true, 0x00), (true, 0xEF), (false, 0x2B), (true, 0x00),
        (true, 0x00), (true, 0x00), (true, 0xEF), (false, 0x2C)], 32) := by decide

theorem test_reg_write :
    seen (fun t => t.trace) (exec (.regWrite ⟨0x01, [], some 120⟩) up)
      = some [.pin .dc false, .frameBegin, .byte 0x01, .frameEnd, .wait .settle 120] ∧
    seen (fun t => t.trace.length) (exec (.regWrite ⟨0xB0, [0x01, 0x02], none⟩) up) = some 12 := by decide

/-- 41 events and the nine units of R140. -/
theorem test_run_init :
    seen (fun t => (t.trace.length, wire t.trace, t.romIdx)) (exec .runInit State.reset)
    = some (41, [(false, 0x01), (false, 0x11), (false, 0x3A), (true, 0x55), (false, 0x36), (true, 0x08), (false, 0x21),
        (false, 0x13), (false, 0x29)], 7) := by decide

theorem test_hw_reset_pulse :
    seen (fun t => t.trace) (exec .hwResetPulse State.reset)
      = some [.pin .rst false, .wait .rstLow 10, .pin .rst true, .wait .rstRecover 120] ∧
    seen (fun t => t.trace) (exec .hwResetPulse up) = some [] := by decide

theorem test_to_native :
    seen (fun t => t.cvNative) (exec (.toNative 0x12 0x34 0x56) State.reset) = some 0x11AA ∧
    seen (fun t => t.cvNative)
      (exec (.toNative 0x12 0x34 0x56) { State.reset with cfg := { Config.reference with swapRb := true } })
      = some 0x51A2 := by decide

/-- The table's ROM header word for `3A 01`, its data byte 0 (R99): eight events, one iteration of the ROM loop. -/
theorem test_rom_entry :
    seen (fun t => (t.trace.length, t.romIdx, Table.get 0x3A t.ghost.panel.regs))
      (step (State.reset.withFetchWord 16 0x3A01)) = some (8, 1, some [0x00]) := by decide

/-! ### Wire rows (R88 to R98; effects by R57 to R63) -/

theorem test_wire_commands :
    [Instr.swreset, .slpout, .noron, .invon, .dispon, .caset, .raset, .ramwr, .madctl, .colmod, .tuningCommand 0xB0].map
      (fun i => seen (fun t => (wire t.trace, t.ghost.panel.settle)) (exec i up))
    = [some ([(false, 0x01)], 120), some ([(false, 0x11)], 120), some ([(false, 0x13)], 10), some ([(false, 0x21)], 10),
        some ([(false, 0x29)], 120), some ([(false, 0x2A)], 0), some ([(false, 0x2B)], 0), some ([(false, 0x2C)], 0),
        some ([(false, 0x36)], 0), some ([(false, 0x3A)], 0), some ([(false, 0xB0)], 0)] := by decide

/-- SWRESET forgets the panel's parameters; RAMWR without a window records why it opens none (R58, R60). -/
theorem test_wire_command_effects :
    seen (fun t => (t.ghost.panel.colmod, t.ghost.panel.regs)) (exec .swreset up) = some (none, []) ∧
    seen (fun t => (t.ghost.panel.cur, t.ghost.faults)) (exec .ramwr up)
      = some (.unset, [.staleWindow, .windowUnset]) := by decide

/-- A parameter byte after COLMOD, and a byte before any command (R59). -/
theorem test_wire_data :
    seen (fun t => t.ghost.panel.colmod)
      (exec (.wireData 0x66) { up with ghost := ⟨{ Panel.initial with cmd := some 0x3A }, []⟩ }) = some (some 0x66) ∧
    seen (fun t => t.ghost.faults) (exec (.wireData 0x66) State.reset) = some [.dataWithoutCommand] := by decide

/-! ### The step -/

/-- From reset with nothing presented the block waits (R241). -/
theorem test_reset_waits : seen (fun t => decide (t = State.reset)) (step State.reset) = some true := by decide

/-- `rst_n` falls in the middle of an operation (R242). -/
theorem test_reset_cuts_an_operation :
    seen (fun t => (t.seq, t.regValue 3, t.ghost.panel.status, t.ghost.faults))
      (step { up with
        seq := .busy
        work := sendDataActs 0
        inputs := [.rstN false] })
    = some (.idle, 0x0000, .corrupt, [.abortedByReset]) := by decide

/-- While `rst_n` = 0 a presented CONVERT waits; the step in which it returns to 1 only releases the block (R240). -/
theorem test_reset_low_accepts_nothing :
    seen (fun t => (t.inputs.length, t.opDone, t.nativeResult))
      (step { State.reset with rstN := false, inputs := [.code (.descriptor 0x6000000000FF0000)] })
      = some (1, false, 0x0000) ∧
    seen (fun t => (t.rstN, t.inputs.length, t.ready)) (step { up with
        rstN := false
        inputs := [.rstN true, .code (.descriptor 0x6000000000FF0000)] }) = some (true, 1, false) := by decide

/-- A register read in the middle of an operation reads BUSY (R44). -/
theorem test_read_while_busy :
    seen (fun t => t.regRdata) (step { State.reset with
        seq := .busy
        work := sendDataActs 0
        inputs := [.code (.regAddr 3), .code (.descriptor 0)] }) = some 0x0010 := by decide

/-- The state `n` steps on. -/
def after : Nat → State → Option State
  | 0, s => some s
  | n + 1, s => match step s with
    | .next t => after n t
    | _ => none

/-- Two reads at two points of one SETUP, then one when it has completed: PINS with DC alone configured, then with RST
driven, then at the end; BUSY 1, 1, 0 (R44, R191, R38). -/
theorem test_reads_at_several_points :
    (∀ p ∈ [((3 : RegAddr), [(0x0010 : Half), 0x0010, 0x0001]), (5, [0x0001, 0x000D, 0x003D])],
      [2, 4, 6].map (fun n => (after n { State.reset with
          pauses := [4, 3]
          inputs := [.code (.descriptor 0x1000000000000000), .code (.regAddr p.1), .pass, .code (.regAddr p.1), .pass,
            .code (.regAddr p.1)] }).map State.regRdata) = p.2.map some) := by decide

/-- A held block still answers the read listed after a passed turn (R220). -/
theorem test_held_block_reads_again :
    (after 2 { State.reset with
      seq := .busy, held := some .cfg, work := [.tcall .cfg], inputs := [.pass, .code (.regAddr 3)] }).map State.regRdata
      = some 0x0010 := by decide

/-- A call that is never answered: BUSY, and then stuck (R220). -/
theorem test_hold :
    seen (fun t => (t.regValue 3, t.held, t.opDone)) (exec .setup { State.reset with transport := ⟨[], .never⟩ })
      = some (0x0010, some .cfg, false) ∧
    seen (fun _ => ()) (step { State.reset with seq := .busy, held := some .cfg, work := [.tcall .cfg] }) = none := by
  decide

/-! ### Witnesses: a state and operands that meet the hypotheses of each statement that has any -/

/-- Straps, tuning table and delays used below; the delays are the smallest R132 admits. -/
def tuningTable : List RomEntry := [⟨0xB0, [0x01, 0x02], none⟩, ⟨0xB1, [], some 5⟩]

/-- An admissible instance with both optional pins. -/
def idle : State := { up with cfg := Config.reference }

theorem test_witness_DecodeInvertsEncode :
    CmdCodes.default.Distinct ∧ ∀ i ∈ [Instr.pixel (-32768) 32767 255 255 255, .romEntry ⟨0xFF, List.replicate 15 0xFF,
        some 0xFFFF⟩, .tuningCommand 0xFF, .illegalOpc8F (BitVec.allOnes 63), .read 15, .wireData 255],
      i.wellFormed CmdCodes.default = true ∧ (encode CmdCodes.default i).isSome = true := by decide

theorem test_witness_OperandsComeFromTheirFields :
    decodeDescriptor 0x5080007FFFFF00FF = .ok (.pixel 0x8000 0x7FFF 255 0 255) ∧
    decodeDescriptor 0x4000000000FF00FF = .ok (.fill 255 0 255) ∧
    decodeDescriptor 0x6000000000FF00FF = .ok (.convert 255 0 255) := by decide

theorem test_witness_RomImageReadsBack :
    ∀ e ∈ tuningTable ++ [⟨0, List.replicate 15 0, some 0xFFFF⟩], e.wellFormed = true := by decide

theorem test_witness_IllFormedImagesRejected :
    (∀ e ∈ tuningTable, e.wellFormed = true) ∧ (0x10 : Byte).extractLsb' 4 3 ≠ 0 ∧
    (List.replicate 15 (0 : Byte)).length ≤ 15 ∧
    (⟨0x29, [], some 120⟩ : RomEntry).wellFormed = true ∧ 3 < (encodeRomEntry ⟨0x29, [], some 120⟩).length := by decide

theorem test_witness_ReferenceCompositionAdmissible :
    CmdCodes.default.Distinct ∧ 120 ≤ SettleTimes.reference.swreset.toNat ∧ 120 ≤ SettleTimes.reference.slpout.toNat ∧
    10 ≤ SettleTimes.reference.invon.toNat ∧ 10 ≤ SettleTimes.reference.noron.toNat ∧
    120 ≤ SettleTimes.reference.dispon.toNat ∧
    (∀ e ∈ tuningTable, e.wellFormed = true ∧ e.cmd ≠ CmdCodes.default.colmod ∧ e.cmd ≠ CmdCodes.default.madctl) ∧
    Config.reference.codes = CmdCodes.default ∧ Config.reference.swapRb = false ∧
    Config.reference.romImage = encodeRom (referenceRom CmdCodes.default false SettleTimes.reference []) ∧
    Config.reference.romEntries = ([] : List RomEntry).length + 7 := by decide

theorem test_witness_StepRunsTheDecodedInstruction :
    romAdmissible (up.present (.descriptor 0x4000000000FF0000)).cfg = true ∧
    (up.present (.descriptor 0x4000000000FF0000)).inputs = [.code (.descriptor 0x4000000000FF0000)] ∧
    (up.present (.descriptor 0x4000000000FF0000)).accepts = true ∧
    decode up.cfg.codes (.descriptor 0x4000000000FF0000) = .ok (.fill 255 0 0) ∧
    ({ up with seq := .busy, inputs := [.code (.regAddr 3)] } : State).inputs = [.code (.regAddr 3)] ∧
    decode up.cfg.codes (.regAddr 3) = .ok (.read 3) := by decide

theorem test_witness_StepRejectsIllegalDescriptors :
    romAdmissible up.cfg = true ∧
    (up.present (.descriptor 0x3100000000000000)).inputs = [.code (.descriptor 0x3100000000000000)] ∧
    (up.present (.descriptor 0x3100000000000000)).accepts = true ∧
    (up.present (.descriptor 0x3100000000000000)).pauses = [] ∧
    isIllegal (decodeDescriptor 0x3100000000000000) = true ∧ isIllegal (decodeDescriptor 0) = true ∧
    isIllegal (decodeDescriptor 0x7000000000000000) = true ∧ isIllegal (decodeDescriptor (BitVec.allOnes 64)) = true := by
  decide

theorem test_witness_InadmissibleRomRefused :
    initRom ({ up with cfg := { Config.reference with romEntries := 6 } } : State).cfg = none ∧
    (initRom Config.reference).isSome = true := by decide

theorem test_witness_BlockTakesOnlyWhenReady :
    romAdmissible up.cfg = true ∧ up.rstN = true ∧
    ({ up with seq := .busy, inputs := [.code (.descriptor 0)] } : State).held = none ∧
    ({ up with seq := .busy, inputs := [.pass] } : State).inputs = [.pass] ∧
    ({ up with held := some .frameEnd } : State).held.isSome = true ∧ up.seq = .idle ∧
    ({ up with work := sendDataActs 1, inputs := [.rstN false] } : State).inProgress = true ∧
    ({ up with work := sendDataActs 1, inputs := [.rstN false] } : State).seq = .idle ∧
    ({ up with rstN := false, inputs := [.code (.descriptor 0)] } : State).rstN = false ∧
    ({ up with rstN := false, inputs := [.code (.descriptor 0)] } : State).inputs = [.code (.descriptor 0)] ∧
    ({ up with seq := .busy } : State).seq = .busy ∧ up.inputs = [] ∧ up.accepts = true := by decide

theorem test_witness_HeldBlockIsStuckButReads :
    romAdmissible up.cfg = true ∧
    up.rstN = true ∧
    ({ up with seq := .busy, held := some .frameEnd, inputs := [.code (.regAddr 3)] } : State).held = some .frameEnd ∧
    ({ up with seq := .busy, held := some .frameEnd, inputs := [.code (.regAddr 3)] } : State).seq = .busy ∧
    ({ up with seq := .busy, held := some .frameEnd } : State).inputs = [] := by decide

/-- SETUP at its first and last call, PIXEL at its last; FILL before its first. -/
theorem test_witness_UnansweredCallHolds_TransportFailureAborts_FailsAlong :
    up.accepts = true ∧ up.ready = true ∧
    initRom up.cfg = some (referenceRom CmdCodes.default false SettleTimes.reference []) ∧
    nthCall 0 (setupEvents up.cfg (referenceRom CmdCodes.default false SettleTimes.reference [])) = some .cfg ∧
    nthCall 27 (setupEvents up.cfg (referenceRom CmdCodes.default false SettleTimes.reference [])) = some .frameEnd ∧
    nthCall 28 (setupEvents up.cfg (referenceRom CmdCodes.default false SettleTimes.reference [])) = none ∧
    nthCall 28 (operationEvents up.cfg [] (.pixel 239 0 1 2 3)) = some .frameEnd ∧
    (∀ a ∈ [Answer.fail, .never], ({ up with transport := ⟨List.replicate 28 .ok ++ a :: [], .ok⟩ } : State).Answers 28 a
      []) := by decide

theorem test_witness_fill_calls (es : List Event) :
    nthCall 0 (windowEvents CmdCodes.default 0 0 239 239 ++ es) = some .frameBegin := rfl

/-- The failing call of entry 2 (COLMOD) at its data's END, the last of its six calls. -/
theorem test_witness_RunInitCompletes :
    (referenceRom CmdCodes.default false SettleTimes.reference [])[2]? = some ⟨0x3A, [0x55], none⟩ ∧
    5 < entryCalls ⟨0x3A, [0x55], none⟩ ∧
    ({ up with transport := ⟨List.replicate 11 .ok ++ [.fail], .ok⟩ } : State).Answers
      (romCalls ((referenceRom CmdCodes.default false SettleTimes.reference []).take 2) + 5) .fail [] := by decide

/-- Interrupted before its first act, and before its last. -/
theorem test_witness_InterruptedOperationEndsTheSame :
    up.work = [] ∧ up.pauses = [] ∧ ∀ k ∈ [0, 3],
      (State.perform (sendDataActs 7) { up with pauses := [k] }).work ≠ [] ∧
      (State.perform (sendDataActs 7) { up with pauses := [k] }).held = none := by decide

/-- `rst_n` high and driven high; falling, with and without an operation in progress; returning to 1. -/
theorem test_witness_ResetValues :
    romAdmissible up.cfg = true ∧ up.rstN = true ∧ up.inProgress = false ∧
    (∀ l ∈ [true, false], ({ up with inputs := [.rstN l] } : State).inputs = [.rstN l]) ∧
    ({ up with seq := .busy, inputs := [.rstN false] } : State).seq = .busy ∧
    ({ up with rstN := false, inputs := [.code (.descriptor 0)] } : State).inputs = [.code (.descriptor 0)] ∧
    ({ up with rstN := false, inputs := [.rstN true] } : State).rstN ≠ true := by decide

/-- The hypotheses of the completion statements: no operation in progress, an undisturbed run, with READY and without,
an admissible ROM, and a reset pin. -/
theorem test_witness_completions :
    up.accepts = true ∧ up.Undisturbed ∧ up.pauses = [] ∧ up.ready = true ∧
    State.reset.accepts = true ∧ State.reset.Undisturbed ∧ State.reset.ready = false ∧
    initRom State.reset.cfg = some (referenceRom CmdCodes.default false SettleTimes.reference []) ∧
    State.reset.cfg.hasRst = true ∧ up.cfg.hasRst = false ∧
    (⟨0xB0, List.replicate 15 0, some 1⟩ : RomEntry).wellFormed = true := by decide

/-- Undisturbed with answers still listed: the scripted oracle's case. -/
theorem test_witness_undisturbed_script :
    ({ up with transport := ⟨List.replicate 3 .ok, .ok⟩ } : State).Undisturbed := by decide

theorem test_witness_FramingDisciplineKept_FailureIsTheLastEvent_FlagsHaveTheirWriters :
    up.frameOpen = false ∧
    seen (fun _ => ()) (exec (.sendData 1) { up with transport := ⟨[.ok, .fail], .ok⟩ }) = some () ∧
    seen (fun t => t.trace.getLast?) (exec (.sendData 1) { up with transport := ⟨[.ok, .fail], .ok⟩ })
      = some (some (.tFail (.write 1))) ∧
    seen (fun t => t.trace.length) (exec .setup { up with frameOpen := true, transport := ⟨[], .fail⟩ }) = some 1 := by
  decide

/-- The write that makes READY fall, and the acts a step may find pending. -/
theorem test_witness_FlagsHaveTheirWriters :
    seen (fun t => (t.ready, t.trace)) (step { up with seq := .busy, work := [.tcall .cfg], transport := ⟨[], .fail⟩ })
      = some (false, [.tFail .cfg]) ∧
    seen (fun t => t.warnNotReady) (step { State.reset with seq := .busy, work := [.setWarn] }) = some true ∧
    seen (fun t => t.errIllegalOp) (step { up with errIllegalOp := true, inputs := [.rstN false] }) = some false ∧
    seen (fun t => t.nativeResult) (step { State.reset with cvNative := 7, seq := .busy, work := [.storeNative] })
      = some 7 := by decide

/-- Idle in a frame that an abort left open, the SETUP that recovers presented; and in the middle of a unit. -/
theorem test_witness_FramingDisciplineKept :
    ({ up with
        ready := false
        frameOpen := true
        trace := [.pin .dc false, .frameBegin, .tFail (.write 1)]
        inputs := [.code (.descriptor 0x1000000000000000)] } : State).Framed ∧
    ({ up with
        frameOpen := true
        trace := [.pin .dc true, .frameBegin]
        work := [.tcall (.write 1), .tcall .frameEnd] } : State).Framed :=
  ⟨⟨fun i hi => .inl ⟨0x1000000000000000, by simpa using hi⟩, .opened, .opened, by decide⟩,
    ⟨fun i hi => by simp [up, State.reset] at hi, .opened, .closed, by decide⟩⟩

/-- The call counts of a failing SETUP: its `configure()`, and the first and the last call of its entry 2. -/
theorem test_witness_failing_setup :
    seen (fun t => (t.romIdx, t.errIllegalOp, t.warnNotReady)) (exec .setup { up with
        errIllegalOp := true, warnNotReady := true, transport := ⟨[.fail], .ok⟩ }) = some (7, false, false) ∧
    (∀ k ∈ [7, 12], seen (fun t => t.romIdx) (exec .setup { up with
        transport := ⟨List.replicate k .ok ++ [.fail], .ok⟩ }) = some 2) ∧
    1 + romCalls ((referenceRom CmdCodes.default false SettleTimes.reference []).take 2) + 0 = 7 ∧
    1 + romCalls ((referenceRom CmdCodes.default false SettleTimes.reference []).take 2) + 5 = 12 := by decide

/-- The bounds of R160 at their ends, inside and outside. -/
theorem test_witness_PixelWritesItsUnit_FillWritesOneRun :
    (0 ≤ (239 : Half).toInt ∧ (239 : Half).toInt ≤ 239 ∧ 0 ≤ (0 : Half).toInt ∧ (0 : Half).toInt ≤ 239) ∧
    240 ≤ (240 : Half).toInt ∧ (-1 : Half).toInt < 0 ∧ State.reset.ready = false ∧ State.reset.pauses = [] := by decide

theorem test_witness_PixelEndState_FillEndState :
    up.accepts = true ∧ up.Undisturbed ∧ up.ready = true ∧ up.cfg.codes.Distinct ∧ up.ghost.panel.PixelReady ∧
    inPanel 239 239 = true ∧ inPanel 0 0 = true := by decide

/-- One cell, with 0, 1 and 2 pixels; the whole panel. -/
theorem test_witness_PixelCountLaw :
    up.Undisturbed ∧ up.cfg.codes.Distinct ∧ up.ghost.panel.PixelReady ∧ windowValid (239, 239) (239, 239) = true ∧
    windowValid (0, 239) (0, 239) = true ∧ inWindow 239 239 239 239 239 239 ∧ ¬ inWindow 239 239 239 239 238 239 ∧
    (239 - 239 + 1) * (239 - 239 + 1) ≤ (1 : BitVec 32).toNat ∧
    (0 : BitVec 32).toNat < (239 - 239 + 1) * (239 - 239 + 1) ∧
    (239 - 239 + 1) * (239 - 239 + 1) < (2 : BitVec 32).toNat := by decide

/-- LIVE; CORRUPT; held in reset. -/
theorem test_witness_CommandByteObserved :
    ({ up.ghost.panel with status := .corrupt } : Panel).status = .corrupt ∧
    ({ up.ghost.panel with rstHeld := true } : Panel).status = .live ∧
    ({ up.ghost.panel with rstHeld := true } : Panel).rstHeld = true ∧
    CmdCodes.default.Distinct ∧ up.ghost.panel.status = .live ∧ up.ghost.panel.rstHeld = false ∧
    (0x01 : Byte) = CmdCodes.default.swreset ∧ (0x2C : Byte) ≠ CmdCodes.default.swreset ∧
    (0x2A : Byte) ≠ CmdCodes.default.ramwr := by decide

/-- No window; the largest window; a window one past the panel. -/
theorem test_witness_MemoryWriteOpensTheWindow :
    CmdCodes.default.Distinct ∧ up.ghost.panel.status = .live ∧ up.ghost.panel.rstHeld = false ∧
    up.ghost.panel.colWin = none ∧
    ({ up.ghost.panel with colWin := some (0, 239), rowWin := some (239, 239) } : Panel).colWin = some (0, 239) ∧
    ({ up.ghost.panel with colWin := some (0, 240), rowWin := some (0, 239) } : Panel).colWin = some (0, 240) ∧
    ({ up.ghost.panel with colWin := some (0, 240), rowWin := some (0, 239) } : Panel).rowWin = some (0, 239) :=
  ⟨by decide, rfl, rfl, rfl, rfl, rfl, rfl⟩

theorem test_witness_ParametersObserved :
    CmdCodes.default.Distinct ∧ State.reset.ghost.panel.cmd = none ∧ State.reset.ghost.panel.status = .live ∧
    State.reset.ghost.panel.rstHeld = false ∧ State.reset.ghost.panel.settle = 0 ∧
    0 < ({ up.ghost.panel with cmd := some 0x29, settle := 120 } : Panel).settle ∧
    (0xB0 : Byte) ∉ [CmdCodes.default.ramwr, CmdCodes.default.caset, CmdCodes.default.raset, CmdCodes.default.colmod] ∧
    ∀ c ∈ [0xB0, CmdCodes.default.caset, CmdCodes.default.raset, CmdCodes.default.colmod],
      ({ up.ghost.panel with cmd := some c } : Panel).status = .live ∧
      ({ up.ghost.panel with cmd := some c } : Panel).rstHeld = false ∧
      ({ up.ghost.panel with cmd := some c } : Panel).settle = 0 ∧
      ({ up.ghost.panel with cmd := some c } : Panel).args = [] ∧
      ({ up.ghost.panel with cmd := some c } : Panel).cmd = some c := by decide

/-- A pixel stream at the last cell, with and without its high byte. -/
theorem test_witness_DataUnitMemoryFrame :
    up.Undisturbed ∧ up.ghost.storeTarget up.cfg.codes = none ∧
    Ghost.storeTarget up.cfg.codes
      ⟨{ up.ghost.panel with cmd := some 0x2C, pend := some 0xF8, cur := .cell 239 239 }, []⟩ = some (239, 239) := by
  decide

/-- A pixel stream in the window (3, 5)-(4, 6), at cursor `c`, with high byte `h` or none (R61, R63). -/
def streaming (c : Cursor) (h : Option Byte) : State :=
  { up with ghost := ⟨{ up.ghost.panel with
      cmd := some 0x2C, colWin := some (3, 4), rowWin := some (5, 6), cur := c, pend := h }, []⟩ }

/-- The premises of DataUnitMemoryFrame's clauses, at every cursor, with a high byte and without. -/
theorem test_witness_pixel_bytes (c : Cursor) (h : Option Byte) :
    (streaming c h).Undisturbed ∧ (streaming c h).ghost.panel.status = .live ∧
    (streaming c h).ghost.panel.rstHeld = false ∧
    (streaming c h).ghost.panel.cmd = some (streaming c h).cfg.codes.ramwr ∧
    (streaming c h).ghost.panel.cur = c ∧ (streaming c h).ghost.panel.pend = h :=
  ⟨⟨nofun, rfl, rfl⟩, rfl, rfl, rfl, rfl, rfl⟩

/-- The scan through the window's four cells (R63). -/
theorem test_scan_order :
    ∀ p ∈ [(Cursor.cell 3 5, Cursor.cell 4 5), (.cell 4 5, .cell 3 6), (.cell 3 6, .cell 4 6), (.cell 4 6, .done)],
      seen (fun t => t.ghost.panel.cur) (exec (.wireData 1) (streaming p.1 (some 0xF8))) = some p.2 := by decide

/-- A pixel too many, and one without a window's cursor (R61). -/
theorem test_pixel_outside_the_window :
    ∀ p ∈ [(Cursor.done, [GhostFault.windowOverrun]), (.unset, [])],
      seen (fun t => t.ghost.faults) (exec (.wireData 1) (streaming p.1 (some 0xF8))) = some p.2 := by decide

/-- A stream that stores one cell and resets nothing; RUN_INIT, which resets a LIVE panel and stores nothing after it, and
leaves a CORRUPT panel as it is; a store before a reset, and one after. -/
theorem test_witness_StreamMemoryFrame :
    up.Undisturbed ∧ initRom up.cfg = some (referenceRom CmdCodes.default false SettleTimes.reference []) ∧
    up.accepts = true ∧ up.ready = true ∧
    Ghost.storedCells CmdCodes.default false (data16Events 0x1234)
      ⟨{ up.ghost.panel with cmd := some 0x2C, cur := .cell 239 239 }, []⟩ = [(239, 239)] ∧
    Ghost.resetIn CmdCodes.default false (data16Events 0x1234) up.ghost = false ∧
    Ghost.resetIn CmdCodes.default false (romEvents (referenceRom CmdCodes.default false SettleTimes.reference []))
      up.ghost = true ∧
    Ghost.resetIn CmdCodes.default false (romEvents (referenceRom CmdCodes.default false SettleTimes.reference []))
      up.ghost.corrupt = false ∧
    Ghost.storedCells CmdCodes.default false (data16Events 0x1234 ++ commandEvents 0x01)
      ⟨{ up.ghost.panel with cmd := some 0x2C, cur := .cell 239 239 }, []⟩ = [] ∧
    Ghost.storedCells CmdCodes.default false (commandEvents 0x01 ++ windowEvents CmdCodes.default 3 4 3 4 ++
      data16Events 0x1234) up.ghost = [(3, 4)] := by decide

theorem test_witness_CommandMemoryFrame :
    idle.Undisturbed ∧ idle.cfg.codes.Distinct ∧ (0x2C : Byte) ≠ idle.cfg.codes.swreset ∧
    (0xB0 : Byte) ≠ idle.cfg.codes.swreset ∧ (0xB0 : Byte) ≠ idle.cfg.codes.ramwr ∧ idle.ghost.panel.status = .live ∧
    idle.ghost.panel.rstHeld = false ∧ idle.cfg.hasRst = true := by decide

theorem test_witness_ReferenceRomIsQuiet :
    CmdCodes.default.Distinct ∧ 120 ≤ SettleTimes.reference.swreset.toNat ∧ 120 ≤ SettleTimes.reference.slpout.toNat ∧
    10 ≤ SettleTimes.reference.invon.toNat ∧ 10 ≤ SettleTimes.reference.noron.toNat ∧
    120 ≤ SettleTimes.reference.dispon.toNat ∧ ∀ e ∈ tuningTable, e.cmd ∉ CmdCodes.default.all := by decide

/-- A panel that RomQuiet speaks of. -/
theorem test_witness_RomQuiet :
    up.ghost.panel.status = .live ∧ up.ghost.panel.rstHeld = false ∧ up.ghost.panel.pend = none ∧
    up.ghost.panel.settle = 0 := by decide

/-- The reference ROM, entry by entry (R140; spec/95 section 2.4). -/
theorem test_reference_rom_quiet :
    RomQuiet CmdCodes.default (referenceRom CmdCodes.default false SettleTimes.reference []) := by
  intro dc g h₁ h₂ h₃ h₄
  simp only [romEvents, referenceRom, List.cons_append, List.nil_append, List.map_cons, List.map_nil,
    List.flatten_cons, List.flatten_nil, List.append_nil, Ghost.observeAll_append]
  obtain ⟨k₁, f₁, -⟩ := Ghost.lone_keeps (codes := CmdCodes.default) (c := 0x01) (d := 120) dc ⟨h₁, h₂, h₃, h₄⟩
    (by decide) (by decide)
  obtain ⟨k₂, f₂, -⟩ := Ghost.lone_keeps (codes := CmdCodes.default) (c := 0x11) (d := 120) false k₁ (by decide) (by decide)
  obtain ⟨k₃, f₃, c₃⟩ := Ghost.single_keeps (codes := CmdCodes.default) (c := 0x3A) (b := 0x55) false k₂
    (by decide) (by decide) (by decide) (by decide) (by decide)
  obtain ⟨k₄, f₄, c₄⟩ := Ghost.single_keeps (codes := CmdCodes.default) (c := 0x36) (b := 0x08) true k₃
    (by decide) (by decide) (by decide) (by decide) (by decide)
  obtain ⟨k₅, f₅, c₅⟩ := Ghost.lone_keeps (codes := CmdCodes.default) (c := 0x21) (d := 10) true k₄ (by decide) (by decide)
  obtain ⟨k₆, f₆, c₆⟩ := Ghost.lone_keeps (codes := CmdCodes.default) (c := 0x13) (d := 10) false k₅ (by decide) (by decide)
  obtain ⟨k₇, f₇, c₇⟩ := Ghost.lone_keeps (codes := CmdCodes.default) (c := 0x29) (d := 120) false k₆ (by decide) (by decide)
  have c := (c₇ (by decide)).trans ((c₆ (by decide)).trans ((c₅ (by decide)).trans (c₄.trans c₃)))
  exact ⟨f₇.trans (f₆.trans (f₅.trans (f₄.trans (f₃.trans (f₂.trans f₁))))), k₇.1, k₇.2.1, k₇.2.2.1, k₇.2.2.2, c⟩

theorem test_witness_SetupMakesThePanelReady :
    idle.accepts = true ∧ idle.Undisturbed ∧ idle.cfg.hasRst = true ∧
    initRom idle.cfg = some (referenceRom CmdCodes.default false SettleTimes.reference []) ∧
    RomQuiet idle.cfg.codes (referenceRom CmdCodes.default false SettleTimes.reference []) :=
  ⟨by decide, by decide, by decide, by decide, test_reference_rom_quiet⟩

/-- Idle, with a PIXEL presented: fault-free, sound, balanced, its absent pins idle, and the step goes on. -/
theorem test_witness_invariants :
    (up.present (.descriptor 0x5000EF00EFFFFFFF)).FaultFree ∧
    (up.present (.descriptor 0x5000EF00EFFFFFFF)).DisplaySound ∧
    (up.present (.descriptor 0x5000EF00EFFFFFFF)).AbsentPinsIdle ∧
    (up.present (.descriptor 0x5000EF00EFFFFFFF)).RunBalanced ∧
    (up.present (.descriptor 0x5000EF00EFFFFFFF)).romIdx ≤ (up.present (.descriptor 0x5000EF00EFFFFFFF)).cfg.romEntries ∧
    ∃ t, step (up.present (.descriptor 0x5000EF00EFFFFFFF)) = .next t ∧ t.ghost.gramAt 239 239 = some 0xFFFF := by
  refine ⟨⟨⟨by decide, ⟨_, by decide, test_reference_rom_quiet⟩, by decide, ?_⟩, by decide⟩, by decide, by decide,
    by decide, by decide, _, rfl, by decide⟩
  intro i hi
  exact .inl ⟨0x5000EF00EFFFFFFF, by simpa [State.present, up, State.reset] using hi⟩

/-- In the middle of a run: two units to go, RUN_CNT 2. -/
theorem test_witness_StepKeepsRunBalanced :
    ({ up with runCnt := 2, work := [.runNext, .runNext] } : State).RunBalanced ∧
    seen (fun t => (t.work, t.runCnt)) (step { up with runCnt := 2, work := [.runNext, .runNext] }) = some ([], 0) := by
  decide

/-- A ghost fault there to be kept. -/
theorem test_witness_RecordsOnlyGrow :
    seen (fun t => t.ghost.faults) (step { up with ghost := ⟨Panel.initial, [.staleWindow]⟩ })
      = some [.staleWindow] := by decide

end Sys2Proof.Machine.Tests
end

section
/-! PROOFS. The register map (R34 to R43): the packed registers as lists of flags, the value of each register. -/

namespace Sys2Proof.Machine

/-! ### Words packed from flags -/

/-- Bit `n` of `x` is the `n`-th of `flags`, and 0 past their end. -/
def HoldsFlags {w : Nat} (x : BitVec w) (flags : List Bool) : Prop := ∀ n, x.getLsbD n = flags.getD n false

theorem HoldsFlags.zero (w : Nat) : HoldsFlags (0#w) [] := fun _ => BitVec.getLsbD_zero

theorem HoldsFlags.append {w : Nat} {x : BitVec w} {flags : List Bool} (h : HoldsFlags x flags) (b : Bool) :
    HoldsFlags (x ++ BitVec.ofBool b) (b :: flags)
  | 0 => BitVec.getLsbD_concat_zero
  | n + 1 => BitVec.getLsbD_concat_succ.trans (h n)

theorem HoldsFlags.reserved {w n : Nat} {x : BitVec w} {flags : List Bool} (h : HoldsFlags x flags)
    (hn : flags.length ≤ n) : x.getLsbD n = false :=
  (h n).trans (List.getD_eq_default _ _ hn)

/-! ### The packed registers -/

theorem State.statusReg_flags (s : State) :
    HoldsFlags s.statusReg [s.ready, s.errTransport, s.errIllegalOp, s.warnNotReady, s.busy] :=
  (HoldsFlags.zero 11).append _ |>.append _ |>.append _ |>.append _ |>.append _

theorem configReg_flags (cfg : Config) : HoldsFlags (configReg cfg) [cfg.hasRst, cfg.hasBl, cfg.swapRb] :=
  (HoldsFlags.zero 13).append _ |>.append _ |>.append _

theorem State.pinsReg_flags (s : State) :
    HoldsFlags s.pinsReg
      [s.dcCfg, s.dcCfg && s.dcLvl, s.rstCfg, s.rstCfg && s.rstLvl, s.blCfg, s.blCfg && s.blLvl] :=
  (HoldsFlags.zero 10).append _ |>.append _ |>.append _ |>.append _ |>.append _ |>.append _

theorem State.busy_iff (s : State) : s.busy = true ↔ s.seq = .busy := by simp [State.busy]

theorem State.statusReg_of_clear {s : State} (hr : s.ready = false) (ht : s.errTransport = false)
    (hi : s.errIllegalOp = false) (hw : s.warnNotReady = false) (hb : s.busy = false) : s.statusReg = 0x0000 := by
  rw [State.statusReg, hr, ht, hi, hw, hb]
  rfl

/-- While a pin is not configured its level is not shown (R31), so the levels do not matter. -/
theorem State.pinsReg_of_unconfigured {s : State} (hd : s.dcCfg = false) (hr : s.rstCfg = false)
    (hb : s.blCfg = false) : s.pinsReg = 0x0000 := by
  rw [State.pinsReg, hd, hr, hb]
  simp only [Bool.false_and]
  rfl

/-! ### The map -/

@[simp] theorem State.regValue_width (s : State) : s.regValue 0x0 = 0x00F0 := rfl
@[simp] theorem State.regValue_height (s : State) : s.regValue 0x1 = 0x00F0 := rfl
@[simp] theorem State.regValue_displayType (s : State) : s.regValue 0x2 = 0x0001 := rfl
@[simp] theorem State.regValue_status (s : State) : s.regValue 0x3 = s.statusReg := rfl
@[simp] theorem State.regValue_config (s : State) : s.regValue 0x4 = configReg s.cfg := rfl
@[simp] theorem State.regValue_pins (s : State) : s.regValue 0x5 = s.pinsReg := rfl
@[simp] theorem State.regValue_nativeResult (s : State) : s.regValue 0x6 = s.nativeResult := rfl

@[simp] theorem State.regValue_madctl (s : State) :
    s.regValue 0x7 = if s.cfg.swapRb then 0x0000 else 0x0008 := by
  change madctlReg s.cfg = _
  unfold madctlReg
  cases s.cfg.swapRb <;> rfl

theorem State.regValue_reserved (s : State) {a : RegAddr} (h : 8 ≤ a.toNat) : s.regValue a = 0x0000 := by
  unfold State.regValue
  split
  case h_9 => rfl
  all_goals omega

theorem exec_read (a : RegAddr) (s : State) : exec (.read a) s = .next { s with regRdata := s.regValue a } := rfl

/-- Settles O17: each register by its lemma, the packed ones bit by bit from their list of flags. -/
theorem registerReadsReturnTheMap : Obligations.RegisterReadsReturnTheMap := by
  intro s a
  have status := s.statusReg_flags
  have config := configReg_flags s.cfg
  have pins := s.pinsReg_flags
  exact ⟨exec_read a s, s.regValue_width, s.regValue_height, s.regValue_displayType,
    status 0, status 1, status 2, status 3, (Bool.eq_iff_iff.mp (status 4)).trans s.busy_iff,
    fun _ => status.reserved,
    config 0, config 1, config 2, fun _ => config.reserved,
    pins 0, pins 1, pins 2, pins 3, pins 4, pins 5, fun _ => pins.reserved,
    s.regValue_nativeResult, s.regValue_madctl, s.regValue_reserved,
    State.statusReg_of_clear rfl rfl rfl rfl rfl, State.pinsReg_of_unconfigured rfl rfl rfl, rfl⟩

end Sys2Proof.Machine
end

section
/-! PROOFS. The step while `rst_n` is low or changes, and the block's reset values (R46, R240, R242). -/

namespace Sys2Proof.Machine

/-! ### The step, when the outside drives `rst_n` or presents a descriptor in reset -/

theorem State.fetch_of_admissible {s : State} (h : romAdmissible s.cfg = true) :
    s.fetch = { s with opDone := false }.select := by simp [State.fetch, h]

theorem step_of_rstN {s : State} {l : Bool} {rest : List Input} (h : romAdmissible s.cfg = true)
    (hi : s.inputs = .rstN l :: rest) :
    step s = .next ({ s with opDone := false, inputs := rest }.driveReset l) := by
  rw [step, State.fetch_of_admissible h]
  simp [State.select, hi]

theorem step_of_descriptor_in_reset {s : State} {w : Descriptor} {rest : List Input} (h : romAdmissible s.cfg = true)
    (hr : s.rstN = false) (hi : s.inputs = .code (.descriptor w) :: rest) :
    step s = .next { s with opDone := false } := by
  rw [step, State.fetch_of_admissible h]
  simp [State.select, hi, hr]

/-! ### A change of `rst_n` -/

/-- The panel and the ghost faults after `rst_n` changes to `l`: only a fall that cuts work touches them (R242). -/
def State.ghostAfterReset (l : Bool) (s : State) : Ghost :=
  if l = false ∧ s.inProgress = true then s.ghost.corrupt.addFault .abortedByReset else s.ghost

/-- Fall and return differ in the level and in what they do to the ghost state, and in nothing else. -/
theorem State.driveReset_of_change {l : Bool} {s : State} (h : s.rstN ≠ l) :
    s.driveReset l = { s.resetBlock with rstN := l, ghost := s.ghostAfterReset l } := by
  rcases s.driveReset_cases l with ⟨heq, -⟩ | ⟨-, rfl, ht⟩ | ⟨-, rfl, ht⟩
  · exact absurd heq h
  · simp [ht, State.assertReset, State.ghostAfterReset]
  · simp [ht, State.releaseReset, State.ghostAfterReset]

theorem State.ghostAfterReset_kept {l : Bool} {s : State} (h : l = true ∨ s.inProgress = false) :
    s.ghostAfterReset l = s.ghost := by
  rcases h with h | h <;> simp [State.ghostAfterReset, h]

theorem State.ghostAfterReset_cut {s : State} (h : s.inProgress = true) :
    s.ghostAfterReset false = s.ghost.corrupt.addFault .abortedByReset := by
  simp [State.ghostAfterReset, h]

theorem State.inProgress_of_busy {s : State} (h : s.seq = .busy) : s.inProgress = true := by
  simp [State.inProgress, State.busy, h]

/-- Settles O16: a change of `rst_n` makes the block's reset values, whichever way it goes; the ghost state differs. -/
theorem resetValues : Obligations.ResetValues := by
  refine ⟨by decide, fun s w rest h hr hi => step_of_descriptor_in_reset h hr hi, ?_⟩
  intro s l rest h hi hl
  have hstep := step_of_rstN h hi
  rw [State.driveReset_of_change (by simpa using hl)] at hstep
  -- The block's fields are those of `resetBlock`, literally.
  refine ⟨_, hstep, rfl, rfl, rfl, rfl, rfl, rfl, rfl, rfl, rfl, rfl, rfl, rfl, rfl, rfl, rfl, rfl, rfl, rfl, rfl, rfl,
    rfl, State.statusReg_of_clear rfl rfl rfl rfl rfl, State.pinsReg_of_unconfigured rfl rfl rfl,
    fun hkept => State.ghostAfterReset_kept hkept, ?_⟩
  rintro rfl hbusy
  have hcut := State.ghostAfterReset_cut
    (State.inProgress_of_busy (s := { s with opDone := false, inputs := rest }) hbusy)
  exact ⟨congrArg Ghost.panel hcut, fun f => hcut ▸ Ghost.mem_addFault .abortedByReset f s.ghost.corrupt⟩

end Sys2Proof.Machine
end

section
/-! PROOFS. The bytes a LIVE panel takes (R57 to R60): RAMWR, and the data bytes outside a pixel stream. -/

namespace Sys2Proof.Machine

/-! ### The checks of a byte, and the faults they record -/

/-- A LIVE panel not held in reset checks the settle time, then interprets the byte (R57). -/
theorem Ghost.byte_of_live {codes : CmdCodes} {g : Ghost} (hlive : g.panel.status = .live)
    (hrst : g.panel.rstHeld = false) (dc : Bool) (b : Byte) :
    g.byte codes dc b = if dc then g.checkSettle.data codes b else g.checkSettle.command codes b := by
  simp [Ghost.byte, hlive, hrst]

@[simp] theorem Ghost.mem_checkSettle (f : GhostFault) (g : Ghost) :
    f ∈ g.checkSettle.faults ↔ f ∈ g.faults ∨ (f = .settleViolation ∧ 0 < g.panel.settle) := by
  unfold Ghost.checkSettle
  split
  · next h => simp [h, or_comm]
  · next h => simp [h]

theorem Ghost.checkSettle_of_settled {g : Ghost} (h : g.panel.settle = 0) : g.checkSettle = g := by
  simp [Ghost.checkSettle, h]

theorem Ghost.dropOddByte_panel (g : Ghost) : g.dropOddByte.panel = { g.panel with pend := none } := by
  unfold Ghost.dropOddByte
  split
  · next h => rw [← h]
  · rfl

@[simp] theorem Ghost.mem_dropOddByte (f : GhostFault) (g : Ghost) :
    f ∈ g.dropOddByte.faults ↔ f ∈ g.faults ∨ (f = .oddPixelByte ∧ g.panel.pend.isSome = true) := by
  unfold Ghost.dropOddByte
  split
  · next h => simp [h]
  · next h => simp [h, or_comm]

/-! ### RAMWR (R60) -/

theorem Ghost.useWindow_panel (g : Ghost) :
    g.useWindow.panel = { g.panel with colFresh := false, rowFresh := false } := by
  simp only [Ghost.useWindow]
  split <;> rfl

@[simp] theorem Ghost.mem_useWindow (f : GhostFault) (g : Ghost) :
    f ∈ g.useWindow.faults ↔
      f ∈ g.faults ∨ (f = .staleWindow ∧ ¬ (g.panel.colFresh = true ∧ g.panel.rowFresh = true)) := by
  simp only [Ghost.useWindow, Bool.and_eq_true]
  split
  · next h => simp [h]
  · next h => simp only [Ghost.mem_addFault, h, not_false_eq_true, and_true, or_comm]

theorem windowValid_iff (x₁ x₂ y₁ y₂ : Half) :
    windowValid (x₁, x₂) (y₁, y₂) = true ↔ x₁ ≤ x₂ ∧ x₂ ≤ 239 ∧ y₁ ≤ y₂ ∧ y₂ ≤ 239 := by
  rw [windowValid, decide_eq_true_iff]
  simp only [panelSide, BitVec.le_def, BitVec.reduceToNat]
  omega

theorem Ghost.openStream_of_unset {g : Ghost} (h : g.panel.colWin = none ∨ g.panel.rowWin = none) :
    g.openStream = { g.addFault .windowUnset with panel := { g.panel with cur := .unset } } := by
  unfold Ghost.openStream
  split
  · next hcol hrow => simp [hcol, hrow] at h
  · rfl

theorem Ghost.openStream_of_windows {g : Ghost} {col row : Half × Half} (hcol : g.panel.colWin = some col)
    (hrow : g.panel.rowWin = some row) :
    g.openStream =
      if windowValid col row then { g with panel := { g.panel with cur := .cell col.1.toNat row.1.toNat } }
      else { g.addFault .windowInvalid with panel := { g.panel with cur := .unset } } := by
  simp [Ghost.openStream, hcol, hrow]

/-- Opening a stream moves the cursor and touches no other field of the panel. -/
theorem Ghost.openStream_panel (g : Ghost) :
    g.openStream.panel = { g.panel with cur := g.openStream.panel.cur } := by
  unfold Ghost.openStream
  split
  · split <;> rfl
  · rfl

theorem Ghost.mem_openStream (f : GhostFault) (g : Ghost) :
    f ∈ g.openStream.faults ↔ f ∈ g.faults ∨
      (f = .windowUnset ∧ (g.panel.colWin = none ∨ g.panel.rowWin = none)) ∨
      (f = .windowInvalid ∧ ∃ x₁ x₂ y₁ y₂ : Half, g.panel.colWin = some (x₁, x₂) ∧ g.panel.rowWin = some (y₁, y₂) ∧
        ¬ (x₁ ≤ x₂ ∧ x₂ ≤ 239 ∧ y₁ ≤ y₂ ∧ y₂ ≤ 239)) := by
  simp only [← windowValid_iff]
  rcases hcol : g.panel.colWin with _ | ⟨x₁, x₂⟩
  · simp [Ghost.openStream_of_unset (.inl hcol), or_comm]
  rcases hrow : g.panel.rowWin with _ | ⟨y₁, y₂⟩
  · simp [Ghost.openStream_of_unset (.inr hrow), or_comm]
  rw [Ghost.openStream_of_windows hcol hrow]
  cases hvalid : windowValid (x₁, x₂) (y₁, y₂)
  · simp [hvalid, or_comm]
  · simp [hvalid]

/-- The observation when RAMWR reaches `panel_ramwr_start()`: settle time and half pixel are checked (R57, R58). -/
def Ghost.beforeRamwr (codes : CmdCodes) (g : Ghost) : Ghost :=
  { g.checkSettle.dropOddByte with panel := { g.panel with pend := none, cmd := some codes.ramwr, args := [] } }

theorem Ghost.byte_ramwr {codes : CmdCodes} {g : Ghost} (hne : codes.ramwr ≠ codes.swreset)
    (hlive : g.panel.status = .live) (hrst : g.panel.rstHeld = false) :
    g.byte codes false codes.ramwr = (g.beforeRamwr codes).ramwrStart.setSettle (settleBound codes codes.ramwr) := by
  rw [Ghost.byte_of_live hlive hrst]
  simp [Ghost.command, Ghost.dropOddByte_panel, Ghost.checkSettle_panel, Panel.takeCommand, hne, Ghost.beforeRamwr]

/-- Every fault RAMWR adds (R57, R58, R60). -/
theorem Ghost.mem_byte_ramwr {codes : CmdCodes} {g : Ghost} (hne : codes.ramwr ≠ codes.swreset)
    (hlive : g.panel.status = .live) (hrst : g.panel.rstHeld = false) (f : GhostFault) :
    f ∈ (g.byte codes false codes.ramwr).faults ↔
      f ∈ g.faults ∨ (f = .settleViolation ∧ 0 < g.panel.settle) ∨ (f = .oddPixelByte ∧ g.panel.pend.isSome = true) ∨
      (f = .staleWindow ∧ ¬ (g.panel.colFresh = true ∧ g.panel.rowFresh = true)) ∨
      (f = .windowUnset ∧ (g.panel.colWin = none ∨ g.panel.rowWin = none)) ∨
      (f = .windowInvalid ∧ ∃ x₁ x₂ y₁ y₂ : Half, g.panel.colWin = some (x₁, x₂) ∧ g.panel.rowWin = some (y₁, y₂) ∧
        ¬ (x₁ ≤ x₂ ∧ x₂ ≤ 239 ∧ y₁ ≤ y₂ ∧ y₂ ≤ 239)) := by
  have hbefore : f ∈ (g.beforeRamwr codes).faults ↔
      (f ∈ g.faults ∨ (f = .settleViolation ∧ 0 < g.panel.settle)) ∨
        (f = .oddPixelByte ∧ g.panel.pend.isSome = true) := by
    simp [Ghost.beforeRamwr, Ghost.checkSettle_panel]
  rw [Ghost.byte_ramwr hne hlive hrst]
  simp only [Ghost.setSettle, Ghost.ramwrStart, Ghost.mem_openStream, Ghost.mem_useWindow, Ghost.useWindow_panel,
    hbefore, or_assoc]
  rfl

/-- The fields of the panel that RAMWR's claim names, as `panel_ramwr_start()` leaves them. -/
theorem Ghost.byte_ramwr_panel {codes : CmdCodes} {g : Ghost} (hne : codes.ramwr ≠ codes.swreset)
    (hlive : g.panel.status = .live) (hrst : g.panel.rstHeld = false) :
    (g.byte codes false codes.ramwr).panel.colFresh = false ∧ (g.byte codes false codes.ramwr).panel.rowFresh = false ∧
      (g.byte codes false codes.ramwr).panel.cur = (g.beforeRamwr codes).useWindow.openStream.panel.cur := by
  rw [Ghost.byte_ramwr hne hlive hrst]
  simp only [Ghost.setSettle, Ghost.ramwrStart]
  rw [Ghost.openStream_panel, Ghost.useWindow_panel]
  simp

/-- Settles O46: the cursor by the two cases of the windows, each fault by the set RAMWR adds. -/
theorem memoryWriteOpensTheWindow : Obligations.MemoryWriteOpensTheWindow := by
  intro codes g hd hlive hrst
  have hne : codes.ramwr ≠ codes.swreset := by
    intro h
    simp [CmdCodes.Distinct, CmdCodes.all, h] at hd
  have hfault := Ghost.mem_byte_ramwr hne hlive hrst
  obtain ⟨hcol, hrow, hcur⟩ := Ghost.byte_ramwr_panel hne hlive hrst
  have hpanel := Ghost.useWindow_panel (g.beforeRamwr codes)
  refine ⟨hcol, hrow, ?_, ?_, fun hunset => ?_, hfault, fun x₁ x₂ y₁ y₂ hx hy => ⟨?_, ?_⟩⟩
  · simp [hfault]
  · simp [hfault]
  · rw [hcur, Ghost.openStream_of_unset (by rw [hpanel]; exact hunset)]
  · rw [hcur, Ghost.openStream_of_windows (col := (x₁, x₂)) (row := (y₁, y₂)) (by rw [hpanel]; exact hx)
      (by rw [hpanel]; exact hy)]
    simp only [windowValid_iff]
    split <;> rfl
  · simp [hfault, hx, hy, -not_and]

end Sys2Proof.Machine
end

section
/-! PROOFS. The data bytes a LIVE panel takes outside a pixel stream (R57, R59). -/

namespace Sys2Proof.Machine

/-- The panel interprets data bytes for command `c`: LIVE, not held in reset, `c` its last command. -/
def Panel.Receives (c : Byte) (p : Panel) : Prop := p.status = .live ∧ p.rstHeld = false ∧ p.cmd = some c

/-- What every data byte of a command but RAMWR does first: the settle check (R57), then the byte is recorded (R59). -/
def Ghost.receive (c b : Byte) (g : Ghost) : Ghost := { g.checkSettle with panel := g.panel.recordParam c b }

@[simp] theorem Ghost.receive_panel (c b : Byte) (g : Ghost) : (g.receive c b).panel = g.panel.recordParam c b := rfl

@[simp] theorem Ghost.mem_receive (f : GhostFault) (c b : Byte) (g : Ghost) :
    f ∈ (g.receive c b).faults ↔ f ∈ g.faults ∨ (f = .settleViolation ∧ 0 < g.panel.settle) :=
  Ghost.mem_checkSettle f g

theorem Ghost.receive_faults_of_settled {g : Ghost} (h : g.panel.settle = 0) (c b : Byte) :
    (g.receive c b).faults = g.faults := by
  rw [Ghost.receive, Ghost.checkSettle_of_settled h]

@[simp] theorem Panel.recordParam_args (c b : Byte) (p : Panel) : (p.recordParam c b).args = p.args ++ [b] := rfl
@[simp] theorem Panel.recordParam_settle (c b : Byte) (p : Panel) : (p.recordParam c b).settle = p.settle := rfl

theorem Panel.recordParam_get (c b : Byte) (p : Panel) :
    Table.get c.toNat (p.recordParam c b).regs = some (p.args ++ [b]) :=
  Table.get_put_same ..

theorem Panel.Receives.recordParam {c : Byte} {p : Panel} (h : p.Receives c) (b : Byte) :
    (p.recordParam c b).Receives c := h

/-! ### What a data byte does, command by command -/

theorem Ghost.byte_without_command {codes : CmdCodes} {g : Ghost} (hlive : g.panel.status = .live)
    (hrst : g.panel.rstHeld = false) (hcmd : g.panel.cmd = none) (b : Byte) :
    g.byte codes true b = g.checkSettle.addFault .dataWithoutCommand := by
  simp [Ghost.byte_of_live hlive hrst, Ghost.data, Ghost.checkSettle_panel, hcmd]

/-- A data byte of any command but RAMWR (R59). -/
theorem Ghost.byte_param {codes : CmdCodes} {c : Byte} {g : Ghost} (h : g.panel.Receives c) (hc : c ≠ codes.ramwr)
    (b : Byte) : g.byte codes true b = g.checkSettle.paramByte codes c b := by
  obtain ⟨hlive, hrst, hcmd⟩ := h
  simp [Ghost.byte_of_live hlive hrst, Ghost.data, Ghost.checkSettle_panel, hcmd, hc]

theorem Ghost.byte_of_other {codes : CmdCodes} {c : Byte} {g : Ghost} (h : g.panel.Receives c)
    (hc : c ∉ [codes.ramwr, codes.caset, codes.raset, codes.colmod]) (b : Byte) :
    g.byte codes true b = g.receive c b := by
  simp only [List.mem_cons, List.not_mem_nil, or_false, not_or] at hc
  obtain ⟨hramwr, hcaset, hraset, hcolmod⟩ := hc
  simp [Ghost.byte_param h hramwr, Ghost.paramByte, hcaset, hraset, hcolmod, Ghost.receive, Ghost.checkSettle_panel]

/-- The codes the observation tells apart, when no two commands share one (log 20). -/
theorem CmdCodes.ne_of_distinct {codes : CmdCodes} (hd : codes.Distinct) :
    (codes.caset ≠ codes.ramwr ∧ codes.raset ≠ codes.ramwr ∧ codes.colmod ≠ codes.ramwr) ∧
      codes.caset ≠ codes.raset ∧ codes.caset ≠ codes.colmod ∧ codes.raset ≠ codes.colmod := by
  simp only [CmdCodes.Distinct, CmdCodes.all, List.nodup_cons, List.mem_cons, not_or] at hd
  tauto

theorem Ghost.byte_of_caset {codes : CmdCodes} {g : Ghost} (hd : codes.Distinct)
    (h : g.panel.Receives codes.caset) (b : Byte) :
    g.byte codes true b = (g.receive codes.caset b).casetParam := by
  obtain ⟨⟨hramwr, -, -⟩, hraset, hcolmod, -⟩ := CmdCodes.ne_of_distinct hd
  simp [Ghost.byte_param h hramwr, Ghost.paramByte, hraset, hcolmod, Ghost.receive, Ghost.checkSettle_panel]

theorem Ghost.byte_of_raset {codes : CmdCodes} {g : Ghost} (hd : codes.Distinct)
    (h : g.panel.Receives codes.raset) (b : Byte) :
    g.byte codes true b = (g.receive codes.raset b).rasetParam := by
  obtain ⟨⟨-, hramwr, -⟩, hcaset, -, hcolmod⟩ := CmdCodes.ne_of_distinct hd
  simp [Ghost.byte_param h hramwr, Ghost.paramByte, hcaset.symm, hcolmod, Ghost.receive, Ghost.checkSettle_panel]

theorem Ghost.byte_of_colmod {codes : CmdCodes} {g : Ghost} (hd : codes.Distinct)
    (h : g.panel.Receives codes.colmod) (b : Byte) :
    g.byte codes true b = (g.receive codes.colmod b).colmodParam := by
  obtain ⟨⟨-, -, hramwr⟩, -, hcaset, hraset⟩ := CmdCodes.ne_of_distinct hd
  simp [Ghost.byte_param h hramwr, Ghost.paramByte, hcaset.symm, hraset.symm, Ghost.receive, Ghost.checkSettle_panel]

theorem Ghost.byte_of_colmod_first {codes : CmdCodes} {g : Ghost} (hd : codes.Distinct)
    (h : g.panel.Receives codes.colmod) (hargs : g.panel.args = []) (b : Byte) :
    g.byte codes true b =
      { g.receive codes.colmod b with panel := { g.panel.recordParam codes.colmod b with colmod := some b } } := by
  rw [Ghost.byte_of_colmod hd h]
  simp [Ghost.colmodParam, hargs]

theorem Ghost.byte_of_colmod_extra {codes : CmdCodes} {g : Ghost} (hd : codes.Distinct)
    (h : g.panel.Receives codes.colmod) (hargs : g.panel.args ≠ []) (b : Byte) :
    g.byte codes true b = (g.receive codes.colmod b).addFault .extraParam := by
  have hlen : 1 < (g.receive codes.colmod b).panel.args.length := by
    simpa using List.length_pos_of_ne_nil hargs
  rw [Ghost.byte_of_colmod hd h, Ghost.colmodParam]
  split
  · next hone => exact absurd (hone ▸ hlen) (by simp)
  · exact if_pos hlen

/-! ### The two window commands: one effect, on the columns or on the rows -/

/-- CASET's and RASET's effect, `setWin` giving the panel its window (R59). -/
def Ghost.windowParam (setWin : Half × Half → Panel → Panel) (g : Ghost) : Ghost :=
  match g.panel.args with
  | [h₁, l₁, h₂, l₂] => { g with panel := setWin (joinBytes h₁ l₁, joinBytes h₂ l₂) g.panel }
  | args => if 4 < args.length then g.addFault .extraParam else g

def Panel.setColWin (w : Half × Half) (p : Panel) : Panel := { p with colWin := some w, colFresh := true }
def Panel.setRowWin (w : Half × Half) (p : Panel) : Panel := { p with rowWin := some w, rowFresh := true }

theorem Ghost.casetParam_eq_windowParam (g : Ghost) : g.casetParam = g.windowParam Panel.setColWin := rfl
theorem Ghost.rasetParam_eq_windowParam (g : Ghost) : g.rasetParam = g.windowParam Panel.setRowWin := rfl

theorem Ghost.windowParam_of_short {g : Ghost} (setWin : Half × Half → Panel → Panel) (h : g.panel.args.length < 4) :
    g.windowParam setWin = g := by
  unfold Ghost.windowParam
  split
  · next hargs => simp [hargs] at h
  · exact if_neg (by omega)

theorem Ghost.windowParam_of_complete {g : Ghost} (setWin : Half × Half → Panel → Panel) {h₁ l₁ h₂ l₂ : Byte}
    (h : g.panel.args = [h₁, l₁, h₂, l₂]) :
    g.windowParam setWin = { g with panel := setWin (joinBytes h₁ l₁, joinBytes h₂ l₂) g.panel } := by
  simp [Ghost.windowParam, h]

theorem Ghost.windowParam_of_extra {g : Ghost} (setWin : Half × Half → Panel → Panel) (h : 4 < g.panel.args.length) :
    g.windowParam setWin = g.addFault .extraParam := by
  unfold Ghost.windowParam
  split
  · next hargs => simp [hargs] at h
  · exact if_pos h

/-- Command `c` is a window command: its data bytes make the window that `setWin` sets, and `setWin` touches no
field that the interpretation of a data byte reads or writes but that window. -/
structure IsWindowCommand (codes : CmdCodes) (c : Byte) (setWin : Half × Half → Panel → Panel) : Prop where
  byte : ∀ (g : Ghost) (b : Byte), g.panel.Receives c → g.byte codes true b = (g.receive c b).windowParam setWin
  receives : ∀ w p, p.Receives c → (setWin w p).Receives c
  args : ∀ w p, (setWin w p).args = p.args
  settle : ∀ w p, (setWin w p).settle = p.settle
  regs : ∀ w p, (setWin w p).regs = p.regs

theorem isWindowCommand_caset {codes : CmdCodes} (hd : codes.Distinct) :
    IsWindowCommand codes codes.caset Panel.setColWin where
  byte _ b h := (Ghost.byte_of_caset hd h b).trans (Ghost.casetParam_eq_windowParam _)
  receives _ _ h := h
  args _ _ := rfl
  settle _ _ := rfl
  regs _ _ := rfl

theorem isWindowCommand_raset {codes : CmdCodes} (hd : codes.Distinct) :
    IsWindowCommand codes codes.raset Panel.setRowWin where
  byte _ b h := (Ghost.byte_of_raset hd h b).trans (Ghost.rasetParam_eq_windowParam _)
  receives _ _ h := h
  args _ _ := rfl
  settle _ _ := rfl
  regs _ _ := rfl

section
variable {codes : CmdCodes} {setWin : Half × Half → Panel → Panel} {c : Byte} {g : Ghost}

theorem IsWindowCommand.byte_of_short (hw : IsWindowCommand codes c setWin) (h : g.panel.Receives c)
    (hlen : g.panel.args.length < 3) (b : Byte) : g.byte codes true b = g.receive c b := by
  have hargs : (g.receive c b).panel.args.length < 4 := by
    simp only [Ghost.receive_panel, Panel.recordParam_args, List.length_append, List.length_singleton]
    omega
  rw [hw.byte g b h, Ghost.windowParam_of_short setWin hargs]

theorem IsWindowCommand.byte_of_extra (hw : IsWindowCommand codes c setWin) (h : g.panel.Receives c)
    (hlen : 4 ≤ g.panel.args.length) (b : Byte) : g.byte codes true b = (g.receive c b).addFault .extraParam := by
  have hargs : 4 < (g.receive c b).panel.args.length := by
    simp only [Ghost.receive_panel, Panel.recordParam_args, List.length_append, List.length_singleton]
    omega
  rw [hw.byte g b h, Ghost.windowParam_of_extra setWin hargs]

theorem IsWindowCommand.observe_three (hw : IsWindowCommand codes c setWin) (h : g.panel.Receives c)
    (hargs : g.panel.args = []) (b₁ b₂ b₃ : Byte) :
    Ghost.observeAll codes true [.byte b₁, .byte b₂, .byte b₃] g = ((g.receive c b₁).receive c b₂).receive c b₃ := by
  have h₁ : (g.receive c b₁).panel.Receives c := h.recordParam b₁
  have h₂ : ((g.receive c b₁).receive c b₂).panel.Receives c := h₁.recordParam b₂
  change ((g.byte codes true b₁).byte codes true b₂).byte codes true b₃ = _
  rw [hw.byte_of_short h (by simp [hargs]), hw.byte_of_short h₁ (by simp [hargs]),
    hw.byte_of_short h₂ (by simp [hargs])]

/-- The fourth byte sets the window, and does to the rest of the observation what the first three do. -/
theorem IsWindowCommand.observe_four (hw : IsWindowCommand codes c setWin) (h : g.panel.Receives c)
    (hargs : g.panel.args = []) (b₁ b₂ b₃ b₄ : Byte) :
    Ghost.observeAll codes true [.byte b₁, .byte b₂, .byte b₃, .byte b₄] g =
      { (((g.receive c b₁).receive c b₂).receive c b₃).receive c b₄ with
        panel := setWin (b₁ ++ b₂, b₃ ++ b₄) ((((g.receive c b₁).receive c b₂).receive c b₃).receive c b₄).panel } := by
  have h₃ : (((g.receive c b₁).receive c b₂).receive c b₃).panel.Receives c :=
    ((h.recordParam b₁).recordParam b₂).recordParam b₃
  have hfour : ((((g.receive c b₁).receive c b₂).receive c b₃).receive c b₄).panel.args = [b₁, b₂, b₃, b₄] := by
    simp [hargs]
  change (Ghost.observeAll codes true [.byte b₁, .byte b₂, .byte b₃] g).byte codes true b₄ = _
  rw [hw.observe_three h hargs, hw.byte _ b₄ h₃, Ghost.windowParam_of_complete setWin hfour]
  rfl

/-- What CASET's and RASET's payloads have in common: the bytes are recorded; four of them add no fault but the settle
time's, which is one fault however many bytes come early; a fifth adds EXTRA_PARAM. -/
theorem IsWindowCommand.payload (hw : IsWindowCommand codes c setWin) (h : g.panel.Receives c)
    (hargs : g.panel.args = []) (b₁ b₂ b₃ b₄ b₅ : Byte) :
    let g' := Ghost.observeAll codes true [.byte b₁, .byte b₂, .byte b₃, .byte b₄] g
    Table.get c.toNat g'.panel.regs = some [b₁, b₂, b₃, b₄] ∧
    (∀ f, f ∈ g'.faults ↔ f ∈ g.faults ∨ (f = .settleViolation ∧ 0 < g.panel.settle)) ∧
    (g.panel.settle = 0 → g'.faults = g.faults) ∧
    ∀ f, f ∈ (g'.byte codes true b₅).faults ↔
      (f ∈ g.faults ∨ (f = .settleViolation ∧ 0 < g.panel.settle)) ∨ f = .extraParam := by
  have h₄ := hw.receives (b₁ ++ b₂, b₃ ++ b₄) _
    ((((h.recordParam b₁).recordParam b₂).recordParam b₃).recordParam b₄)
  rw [hw.observe_four h hargs]
  refine ⟨?_, fun f => by simp, fun hs => by simp [Ghost.receive_faults_of_settled, hs], fun f => ?_⟩
  · simp [hw.regs, Panel.recordParam_get, hargs]
  · rw [hw.byte_of_extra h₄ (by simp [hw.args]), Ghost.mem_addFault, or_comm]
    simp [hw.settle]

end

/-- Settles O47: each command's data bytes by the equation for that command. -/
theorem parametersObserved : Obligations.ParametersObserved := by
  intro codes g b₁ b₂ b₃ b₄ b₅ hd hlive hrst early
  refine ⟨fun hcmd => ?_, fun c hcmd hc => ?_, fun hcmd hargs => ?_, fun hcmd hargs => ?_, fun hcmd hargs => ?_⟩
  · rw [Ghost.byte_without_command hlive hrst hcmd]
    exact ⟨Ghost.checkSettle_panel g, fun f => by simp [early, or_comm]⟩
  · rw [Ghost.byte_of_other ⟨hlive, hrst, hcmd⟩ hc]
    exact ⟨rfl, fun f => Ghost.mem_receive .., fun hs => Ghost.receive_faults_of_settled hs ..⟩
  · have hw := isWindowCommand_caset hd
    have h : g.panel.Receives codes.caset := ⟨hlive, hrst, hcmd⟩
    have hthree := hw.observe_three h hargs b₁ b₂ b₃
    have hfour := hw.observe_four h hargs b₁ b₂ b₃ b₄
    exact ⟨congrArg (·.panel.colWin) hthree, congrArg (·.panel.colWin) hfour, congrArg (·.panel.colFresh) hfour,
      congrArg (·.panel.rowWin) hfour, hw.payload h hargs b₁ b₂ b₃ b₄ b₅⟩
  · have hw := isWindowCommand_raset hd
    have h : g.panel.Receives codes.raset := ⟨hlive, hrst, hcmd⟩
    have hthree := hw.observe_three h hargs b₁ b₂ b₃
    have hfour := hw.observe_four h hargs b₁ b₂ b₃ b₄
    exact ⟨congrArg (·.panel.rowWin) hthree, congrArg (·.panel.rowWin) hfour, congrArg (·.panel.rowFresh) hfour,
      congrArg (·.panel.colWin) hfour, hw.payload h hargs b₁ b₂ b₃ b₄ b₅⟩
  · have h : g.panel.Receives codes.colmod := ⟨hlive, hrst, hcmd⟩
    have hfirst := Ghost.byte_of_colmod_first hd h hargs b₁
    have h₁ : (g.byte codes true b₁).panel.Receives codes.colmod := by rw [hfirst]; exact h
    rw [Ghost.byte_of_colmod_extra hd h₁ (by simp [hfirst]), hfirst]
    refine ⟨rfl, fun f => Ghost.mem_receive f codes.colmod b₁ g,
      fun hs => Ghost.receive_faults_of_settled hs codes.colmod b₁, rfl, fun f => ?_⟩
    rw [Ghost.mem_addFault, or_comm]
    simp [early]

end Sys2Proof.Machine
end

section
/-! PROOFS. The host descriptor: which row a word selects (R84), and where its operands stand (R80, R82, R83). -/

namespace Sys2Proof

open Machine (isIllegal)

/-- The rows of R84's table: the operation's OPC, and the lowest bit of its must-be-0 field, which ends at bit 59. -/
def hostRows : List (BitVec 4 × Nat) := [(1#4, 0), (2#4, 0), (3#4, 0), (4#4, 24), (5#4, 56), (6#4, 24)]

/-- The word selects the row of OPC `m` and must-be-0 field `W[59:k]` (R84). -/
def SelectsRow (m : BitVec 4) (k : Nat) (w : Descriptor) : Prop := descOpc w = m ∧ w.extractLsb' k (60 - k) = 0

theorem SelectsRow.not_of_opc_ne {m m' : BitVec 4} {k k' : Nat} {w : Descriptor} (h : SelectsRow m k w)
    (hne : m ≠ m') : ¬ SelectsRow m' k' w :=
  fun h' => hne (h.1.symm.trans h'.1)

/-- The OPC and the must-be-0 field are adjacent, so one mask of the bits from `k` up compares both. -/
theorem masked_eq_iff_selectsRow {m : BitVec 4} {k : Nat} {w mask v : Descriptor} (hk : k ≤ 60)
    (hmask : ∀ i < 64, mask.getLsbD i = decide (k ≤ i)) (hv : m ++ 0#60 = v) :
    w &&& mask = v ↔ SelectsRow m k w := by
  have hbit : ∀ i < 64, (w &&& mask).getLsbD i = (w.getLsbD i && decide (k ≤ i)) := fun i hi => by
    rw [BitVec.getLsbD_and, hmask i hi]
  have hv' : ∀ i < 64, v.getLsbD i = if i < 60 then false else m.getLsbD (i - 60) := fun i hi => by
    rw [← hv, BitVec.getLsbD_append, BitVec.getLsbD_zero]
  constructor
  · rintro rfl
    refine ⟨BitVec.eq_of_getLsbD_eq fun i hi => ?_, BitVec.eq_of_getLsbD_eq fun i hi => ?_⟩
    · have h := (hbit (60 + i) (by omega)).symm.trans (hv' (60 + i) (by omega))
      simpa [descOpc, hi, show k ≤ 60 + i by omega] using h
    · have h := (hbit (k + i) (by omega)).symm.trans (hv' (k + i) (by omega))
      simpa [hi, show k + i < 60 by omega] using h
  · rintro ⟨hopc, hzero⟩
    refine BitVec.eq_of_getLsbD_eq fun i hi => ?_
    rw [hbit i hi, hv' i hi]
    split
    · by_cases hki : k ≤ i
      · have h := congrArg (·.getLsbD (i - k)) hzero
        simpa [hki, show i - k < 60 - k by omega] using h
      · simp [hki]
    · have h := congrArg (·.getLsbD (i - 60)) hopc
      simpa [descOpc, show i - 60 < 4 by omega, show 60 + (i - 60) = i by omega, show k ≤ i by omega] using h

/-- What the decoder can answer to a word, and the row it selects (R84, R107). -/
inductive DecodesTo (w : Descriptor) : Decoded Instr → Prop
  | setup (h : SelectsRow 1#4 0 w) : DecodesTo w (.ok .setup)
  | update (h : SelectsRow 2#4 0 w) : DecodesTo w (.ok .update)
  | dumpConfig (h : SelectsRow 3#4 0 w) : DecodesTo w (.ok .dumpConfig)
  | fill (h : SelectsRow 4#4 24 w) : DecodesTo w (.ok (.fill (descR w) (descG w) (descB w)))
  | pixel (h : SelectsRow 5#4 56 w) : DecodesTo w (.ok (.pixel (descX w) (descY w) (descR w) (descG w) (descB w)))
  | convert (h : SelectsRow 6#4 24 w) : DecodesTo w (.ok (.convert (descR w) (descG w) (descB w)))
  | illegal {d : Decoded Instr} (hd : isIllegal d = true) (h : ∀ row ∈ hostRows, ¬ SelectsRow row.1 row.2 w) :
      DecodesTo w d

theorem isIllegal_iff {d : Decoded Instr} : isIllegal d = true ↔
    (∃ r, d = .rejected r) ∨ (∃ u, d = .ok (.illegalOpc0 u)) ∨ (∃ u, d = .ok (.illegalOpc7 u)) ∨
      ∃ v, d = .ok (.illegalOpc8F v) := by
  constructor
  · intro h
    unfold isIllegal at h
    split at h <;> simp at h ⊢
  · rintro (⟨_, rfl⟩ | ⟨_, rfl⟩ | ⟨_, rfl⟩ | ⟨_, rfl⟩) <;> rfl

/-- A word whose OPC is no row's selects none. -/
theorem not_selectsRow_of_opc {w : Descriptor} (h : (descOpc w).toNat ∉ [1, 2, 3, 4, 5, 6]) :
    ∀ row ∈ hostRows, ¬ SelectsRow row.1 row.2 w := by
  have hrows : ∀ row ∈ hostRows, row.1.toNat ∈ [1, 2, 3, 4, 5, 6] := by decide
  exact fun row hrow hsel => h (hsel.1 ▸ hrows row hrow)

/-- The answer of an operation with a must-be-0 field: the operation when the field is 0, and ILLEGAL otherwise, as the
OPC is no other row's. -/
theorem decodesTo_unlessReserved {w : Descriptor} {m : BitVec 4} {k : Nat} {i : Instr}
    (hopc : descOpc w = m) (honly : ∀ row ∈ hostRows, row.1 = m → row.2 = k)
    (hsel : SelectsRow m k w → DecodesTo w (.ok i)) :
    DecodesTo w (unlessReserved (w.extractLsb' k (60 - k) == 0) i) := by
  by_cases hzero : w.extractLsb' k (60 - k) = 0
  · simpa [unlessReserved, hzero] using hsel ⟨hopc, hzero⟩
  · have hnone : ∀ row ∈ hostRows, ¬ SelectsRow row.1 row.2 w := by
      intro row hrow ⟨hm, hz⟩
      exact hzero (honly row hrow (hm.symm.trans hopc) ▸ hz)
    exact .illegal (by rw [unlessReserved, if_neg (by simpa using hzero)]; rfl) hnone

theorem decodesTo_decodeDescriptor (w : Descriptor) : DecodesTo w (decodeDescriptor w) := by
  have hopc : ∀ {n : Nat}, (descOpc w).toNat = n → descOpc w = BitVec.ofNat 4 n := by
    rintro _ rfl
    simp
  unfold decodeDescriptor
  split
  · next h => exact .illegal rfl (not_selectsRow_of_opc (by simp [h]))
  · next h => exact decodesTo_unlessReserved (hopc h) (by decide) .setup
  · next h => exact decodesTo_unlessReserved (hopc h) (by decide) .update
  · next h => exact decodesTo_unlessReserved (hopc h) (by decide) .dumpConfig
  · next h => exact decodesTo_unlessReserved (hopc h) (by decide) .fill
  · next h => exact decodesTo_unlessReserved (hopc h) (by decide) .pixel
  · next h => exact decodesTo_unlessReserved (hopc h) (by decide) .convert
  · next h => exact .illegal rfl (not_selectsRow_of_opc (by simp [h]))
  · next _ h₁ h₂ h₃ h₄ h₅ h₆ _ =>
    exact .illegal rfl (not_selectsRow_of_opc (by simpa using ⟨h₁, h₂, h₃, h₄, h₅, h₆⟩))

/-- Settles O3: each mask compares OPC and must-be-0 field of its row, and the decoder answers by the row selected. -/
theorem descriptorsDecodeByMaskAndMatch : Obligations.DescriptorsDecodeByMaskAndMatch := by
  intro w
  have hsetup : w &&& 0xFFFFFFFFFFFFFFFF = 0x1000000000000000 ↔ SelectsRow 1#4 0 w :=
    masked_eq_iff_selectsRow (by decide) (by decide) rfl
  have hupdate : w &&& 0xFFFFFFFFFFFFFFFF = 0x2000000000000000 ↔ SelectsRow 2#4 0 w :=
    masked_eq_iff_selectsRow (by decide) (by decide) rfl
  have hdump : w &&& 0xFFFFFFFFFFFFFFFF = 0x3000000000000000 ↔ SelectsRow 3#4 0 w :=
    masked_eq_iff_selectsRow (by decide) (by decide) rfl
  have hfill : w &&& 0xFFFFFFFFFF000000 = 0x4000000000000000 ↔ SelectsRow 4#4 24 w :=
    masked_eq_iff_selectsRow (by decide) (by decide) rfl
  have hpixel : w &&& 0xFF00000000000000 = 0x5000000000000000 ↔ SelectsRow 5#4 56 w :=
    masked_eq_iff_selectsRow (by decide) (by decide) rfl
  have hconvert : w &&& 0xFFFFFFFFFF000000 = 0x6000000000000000 ↔ SelectsRow 6#4 24 w :=
    masked_eq_iff_selectsRow (by decide) (by decide) rfl
  simp only [ne_eq, hsetup, hupdate, hdump, hfill, hpixel, hconvert]
  have hdec := decodesTo_decodeDescriptor w
  generalize decodeDescriptor w = d at hdec ⊢
  cases hdec with
  | setup h => simp [isIllegal, h, h.not_of_opc_ne]
  | update h => simp [isIllegal, h, h.not_of_opc_ne]
  | dumpConfig h => simp [isIllegal, h, h.not_of_opc_ne]
  | fill h => simp [isIllegal, h, h.not_of_opc_ne]
  | pixel h => simp [isIllegal, h, h.not_of_opc_ne]
  | convert h => simp [isIllegal, h, h.not_of_opc_ne]
  | illegal hd h =>
    simp only [hostRows, List.forall_mem_cons] at h
    obtain ⟨_, rfl⟩ | ⟨_, rfl⟩ | ⟨_, rfl⟩ | ⟨_, rfl⟩ := isIllegal_iff.mp hd <;> simp [h, isIllegal]

/-- Settles O4: the decoder's answer names the fields; FILL's and CONVERT's bits [55:24] are part of the must-be-0 field. -/
theorem operandsComeFromTheirFields : Obligations.OperandsComeFromTheirFields := by
  intro w x y r g b
  have hdec := decodesTo_decodeDescriptor w
  have hlow : w.extractLsb' 24 36 = 0 → w.extractLsb' 24 32 = 0 := by
    intro h
    refine BitVec.eq_of_getLsbD_eq fun i hi => ?_
    have hbit := congrArg (·.getLsbD i) h
    simpa [hi, show i < 36 by omega] using hbit
  have hrange : ∀ v : Half, -32768 ≤ v.toInt ∧ v.toInt ≤ 32767 := fun v =>
    ⟨BitVec.le_toInt v, Int.le_of_lt_add_one v.toInt_lt⟩
  constructor
  · intro h
    rw [h] at hdec
    cases hdec with
    | pixel _ => exact ⟨rfl, rfl, (hrange _).1, (hrange _).2, (hrange _).1, (hrange _).2, rfl, rfl, rfl⟩
    | illegal hd _ => simp [isIllegal] at hd
  · rintro (h | h) <;> rw [h] at hdec
    · cases hdec with
      | fill hsel => exact ⟨rfl, rfl, rfl, hlow hsel.2⟩
      | illegal hd _ => simp [isIllegal] at hd
    · cases hdec with
      | convert hsel => exact ⟨rfl, rfl, rfl, hlow hsel.2⟩
      | illegal hd _ => simp [isIllegal] at hd

end Sys2Proof
end

section
/-! PROOFS. The ROM image (R99, R100): a record is read back from its own CTL byte, and so is the image. -/

namespace Sys2Proof

theorem RomEntry.wellFormed_iff {e : RomEntry} : e.wellFormed = true ↔ e.data.length ≤ 15 ∧ e.delay ≠ some 0 := by
  simp [RomEntry.wellFormed]

/-! ### The fields of an entry's CTL byte (R99) -/

@[simp] theorem ctlReserved_ctlByte (e : RomEntry) : ctlReserved (ctlByte e) = 0 := by
  apply BitVec.eq_of_toNat_eq
  rw [ctlReserved, toNat_extract_eq, toNat_ctlByte, BitVec.ofNat_eq_ofNat, BitVec.toNat_ofNat]
  split <;> omega

@[simp] theorem ctlDelay_ctlByte (e : RomEntry) : ctlDelay (ctlByte e) = e.delay.isSome := by
  rw [ctlDelay, ctlByte, BitVec.getLsbD_append, BitVec.getLsbD_append]
  simp

theorem ctlCount_ctlByte {e : RomEntry} (h : e.data.length ≤ 15) : ctlCount (ctlByte e) = e.data.length := by
  rw [ctlCount, toNat_extract_eq, toNat_ctlByte]
  split <;> omega

/-- Whatever follows a record, the decoder reads the record and leaves what follows. -/
theorem decodeRomEntry_encodeRomEntry_append {e : RomEntry} (h : e.wellFormed = true) (rest : List Byte) :
    decodeRomEntry (encodeRomEntry e ++ rest) = .ok (e, rest) := by
  obtain ⟨hlen, hdelay⟩ := RomEntry.wellFormed_iff.mp h
  have hcount := ctlCount_ctlByte hlen
  obtain ⟨cmd, data, delay⟩ := e
  cases delay with
  | none => simp [encodeRomEntry, decodeRomEntry, hcount]
  | some d =>
    have hd : d ≠ 0 := fun hd => hdelay (congrArg some hd)
    simpa [encodeRomEntry, decodeRomEntry, hcount, decodeDelay] using hd

/-- Settles O5, by induction on the entries. -/
theorem romImageReadsBack : Obligations.RomImageReadsBack := by
  intro rom hwf
  induction rom with
  | nil => rfl
  | cons e es ih =>
    obtain ⟨he, hes⟩ := List.forall_mem_cons.mp hwf
    simp only [List.length_cons, encodeRom, decodeRom, decodeRomEntry_encodeRomEntry_append he, ih hes]

end Sys2Proof
end

section
/-! PROOFS. The framing discipline (R117): which lists of acts keep it, and that running acts and every step keep it. -/

namespace Sys2Proof.Machine

/-! ### Lists of acts that begin and end outside a frame -/

/-- Begun outside a frame, the acts keep R117 and end outside a frame. -/
def KeepsFramesShut (as : List Act) : Prop :=
  ∀ f : FrameState, f ≠ .opened → ∃ f', f.run (as.flatMap Act.events) = some f' ∧ f' ≠ .opened

/-- The acts emit nothing that a frame takes note of. -/
def FramesUntouched (as : List Act) : Prop := ∀ f : FrameState, f.run (as.flatMap Act.events) = some f

theorem FramesUntouched.keepsFramesShut {as : List Act} (h : FramesUntouched as) : KeepsFramesShut as :=
  fun f hf => ⟨f, h f, hf⟩

theorem KeepsFramesShut.append {as bs : List Act} (ha : KeepsFramesShut as) (hb : KeepsFramesShut bs) :
    KeepsFramesShut (as ++ bs) := by
  intro f hf
  obtain ⟨f₁, h₁, hf₁⟩ := ha f hf
  obtain ⟨f₂, h₂, hf₂⟩ := hb f₁ hf₁
  exact ⟨f₂, by simp [FrameState.run_append, h₁, h₂], hf₂⟩

/-- The shape of the four framing micro-operations (R113 to R116): DC driven, then one frame around `body`. -/
theorem keepsFramesShut_frame (l : Bool) {body : List Act}
    (hbody : FrameState.run .opened (body.flatMap Act.events) = some .opened) :
    KeepsFramesShut (.pinWrite .dc l :: .tcall .frameBegin :: (body ++ [.tcall .frameEnd])) := by
  have hframe : FrameState.run .opened ((body ++ [Act.tcall .frameEnd]).flatMap Act.events) = some .closed := by
    rw [List.flatMap_append, FrameState.run_append, hbody]
    rfl
  intro f hf
  refine ⟨.closed, ?_, by decide⟩
  cases f with
  | opened => exact absurd rfl hf
  | closed => exact hframe
  | levelSet => exact hframe

theorem sendCommandActs_keepsFramesShut (b : Byte) : KeepsFramesShut (sendCommandActs b) :=
  keepsFramesShut_frame false (body := [.tcall (.write b)]) rfl

theorem sendDataActs_keepsFramesShut (b : Byte) : KeepsFramesShut (sendDataActs b) :=
  keepsFramesShut_frame true (body := [.tcall (.write b)]) rfl

theorem sendData16Acts_keepsFramesShut (w : Half) : KeepsFramesShut (sendData16Acts w) :=
  keepsFramesShut_frame true (body := [.tcall (.write (hiByte w)), .tcall (.write (loByte w))]) rfl

theorem run_colorUnitActs (c : Half) (n : Nat) :
    FrameState.run .opened ((colorUnitActs c n).flatMap Act.events) = some .opened := by
  induction n with
  | zero => rfl
  | succ n ih => exact ih

theorem sendColorRunActs_keepsFramesShut (c : Half) (n : BitVec 32) : KeepsFramesShut (sendColorRunActs c n) :=
  keepsFramesShut_frame true (body := .runLoad n :: colorUnitActs c n.toNat) (run_colorUnitActs c n.toNat)

theorem setAddressWindowActs_keepsFramesShut (codes : CmdCodes) (x₁ y₁ x₂ y₂ : Half) :
    KeepsFramesShut (setAddressWindowActs codes x₁ y₁ x₂ y₂) :=
  (sendCommandActs_keepsFramesShut _).append <| (sendData16Acts_keepsFramesShut _).append <|
    (sendData16Acts_keepsFramesShut _).append <| (sendCommandActs_keepsFramesShut _).append <|
    (sendData16Acts_keepsFramesShut _).append <| (sendData16Acts_keepsFramesShut _).append <|
    sendCommandActs_keepsFramesShut _

theorem framesUntouched_complete (status : BitVec 4) : FramesUntouched [.complete status] := fun _ => rfl

theorem paintActs_keepsFramesShut (cfg : Config) (x₁ y₁ x₂ y₂ : Half) (n : BitVec 32) (r g b : Byte) :
    KeepsFramesShut (paintActs cfg x₁ y₁ x₂ y₂ n r g b) :=
  (setAddressWindowActs_keepsFramesShut _ _ _ _ _).append <|
    (FramesUntouched.keepsFramesShut (as := [.convert r g b, .latchNative]) fun _ => rfl).append <|
    (sendColorRunActs_keepsFramesShut _ n).append (framesUntouched_complete _).keepsFramesShut

theorem sendDataListActs_keepsFramesShut (bs : List Byte) : KeepsFramesShut (sendDataListActs bs) := by
  induction bs with
  | nil => exact fun f hf => ⟨f, rfl, hf⟩
  | cons b bs ih => exact (sendDataActs_keepsFramesShut b).append ih

theorem settleActs_framesUntouched (delay : Option Half) : FramesUntouched (settleActs delay) := by
  intro f
  cases delay <;> cases f <;> rfl

theorem regWriteActs_keepsFramesShut (e : RomEntry) : KeepsFramesShut (regWriteActs e) :=
  (sendCommandActs_keepsFramesShut _).append <|
    (sendDataListActs_keepsFramesShut _).append (settleActs_framesUntouched _).keepsFramesShut

theorem romEntryActs_keepsFramesShut (e : RomEntry) : KeepsFramesShut (romEntryActs e) :=
  (regWriteActs_keepsFramesShut e).append (FramesUntouched.keepsFramesShut fun _ => rfl)

theorem runInitActs_keepsFramesShut (rom : List RomEntry) : KeepsFramesShut (runInitActs rom) := by
  have hrom : KeepsFramesShut (romActs rom) := by
    induction rom with
    | nil => exact fun f hf => ⟨f, rfl, hf⟩
    | cons e es ih => exact (romEntryActs_keepsFramesShut e).append ih
  exact hrom

theorem hwResetPulseActs_framesUntouched (cfg : Config) : FramesUntouched (hwResetPulseActs cfg) := by
  intro f
  cases f <;> rfl

theorem setupResetActs_framesUntouched (cfg : Config) : FramesUntouched (setupResetActs cfg) := by
  intro f
  unfold setupResetActs
  cases cfg.hasRst <;> cases f <;> rfl

theorem setupBacklightActs_framesUntouched (cfg : Config) : FramesUntouched (setupBacklightActs cfg) := by
  intro f
  unfold setupBacklightActs
  cases cfg.hasBl <;> cases f <;> rfl

/-- SETUP keeps R117 from inside a frame too: its `configure()` ends whatever frame is open (R110, R191). -/
theorem setupActs_shuts (cfg : Config) (rom : List RomEntry) (f : FrameState) :
    ∃ f', f.run ((setupActs cfg rom).flatMap Act.events) = some f' ∧ f' ≠ .opened := by
  have hpins : KeepsFramesShut [.pinConfigure .dc, .pinWrite .dc false] := by
    intro f hf
    refine ⟨.levelSet, ?_, by decide⟩
    cases f with
    | opened => exact absurd rfl hf
    | closed => rfl
    | levelSet => rfl
  have hend : FramesUntouched [.setReady true, .complete statusOk] := fun _ => rfl
  have hrest := hpins.append <| (setupResetActs_framesUntouched cfg).keepsFramesShut.append <|
    (runInitActs_keepsFramesShut rom).append <|
    (setupBacklightActs_framesUntouched cfg).keepsFramesShut.append hend.keepsFramesShut
  obtain ⟨f', hrun, hf'⟩ := hrest .closed (by decide)
  exact ⟨f', by cases f <;> exact hrun, hf'⟩

theorem updateActs_framesUntouched (s : State) : FramesUntouched (updateActs s) := by
  intro f
  unfold updateActs
  cases s.ready <;> cases f <;> rfl

theorem dumpConfigActs_framesUntouched : FramesUntouched [.emitReport, .complete statusOk] := by
  intro f
  cases f <;> rfl

theorem fillActs_keepsFramesShut (s : State) (r g b : Byte) : KeepsFramesShut (fillActs s r g b) := by
  unfold fillActs
  split
  · exact (framesUntouched_complete _).keepsFramesShut
  · exact paintActs_keepsFramesShut _ _ _ _ _ _ _ _ _

theorem pixelActs_keepsFramesShut (s : State) (x y : Half) (r g b : Byte) :
    KeepsFramesShut (pixelActs s x y r g b) := by
  unfold pixelActs
  split
  · exact (framesUntouched_complete _).keepsFramesShut
  · split
    · exact (framesUntouched_complete _).keepsFramesShut
    · exact paintActs_keepsFramesShut _ _ _ _ _ _ _ _ _

/-- Every instruction begins and ends outside a frame. -/
theorem actsOf_keepsFramesShut (s : State) (i : Instr) : KeepsFramesShut (actsOf s i) := by
  have hnone : KeepsFramesShut [] := fun f hf => ⟨f, rfl, hf⟩
  cases i with
  | setup =>
    simp only [actsOf]
    split
    · exact hnone
    · exact fun f _ => setupActs_shuts _ _ f
  | runInit =>
    simp only [actsOf]
    split
    · exact hnone
    · exact runInitActs_keepsFramesShut _
  | hwResetPulse =>
    simp only [actsOf]
    split
    · exact (hwResetPulseActs_framesUntouched _).keepsFramesShut
    · exact hnone
  | update => exact (updateActs_framesUntouched s).keepsFramesShut
  | dumpConfig => exact dumpConfigActs_framesUntouched.keepsFramesShut
  | fill r g b => exact fillActs_keepsFramesShut s r g b
  | pixel x y r g b => exact pixelActs_keepsFramesShut s x y r g b
  | convert _ _ _ | illegalOpc0 _ | illegalOpc7 _ | illegalOpc8F _ | toNative _ _ _ | read _ =>
    exact fun f hf => ⟨f, rfl, hf⟩
  | sendData b | wireData b => exact sendDataActs_keepsFramesShut b
  | sendData16 w => exact sendData16Acts_keepsFramesShut w
  | sendColorRun c n => exact sendColorRunActs_keepsFramesShut c n
  | setAddressWindow x₁ y₁ x₂ y₂ => exact setAddressWindowActs_keepsFramesShut _ x₁ y₁ x₂ y₂
  | regWrite e => exact regWriteActs_keepsFramesShut e
  | romEntry e => exact romEntryActs_keepsFramesShut e
  | sendCommand _ | tuningCommand _ | swreset | slpout | noron | invon | dispon | caset | raset | ramwr | madctl
  | colmod => exact sendCommandActs_keepsFramesShut _

/-- While the block is not ready, an operation of the port other than SETUP emits nothing a frame takes note of, and does
not make the block ready (R191, R192, R215). -/
theorem actsOf_of_not_ready {s : State} {w : Descriptor} {i : Instr} (hr : s.ready = false)
    (hd : decodeDescriptor w = .ok i) (hi : i ≠ .setup) :
    FramesUntouched (actsOf s i) ∧ Act.setReady true ∉ actsOf s i := by
  have hdec := decodesTo_decodeDescriptor w
  rw [hd] at hdec
  cases hdec with
  | setup => exact absurd rfl hi
  | update => exact ⟨updateActs_framesUntouched s, by simp [actsOf, updateActs, hr]⟩
  | dumpConfig => exact ⟨dumpConfigActs_framesUntouched, by simp [actsOf]⟩
  | fill | pixel =>
    simp only [actsOf, fillActs, pixelActs, hr]
    exact ⟨framesUntouched_complete _, by simp⟩
  | convert => exact ⟨fun _ => rfl, by simp [actsOf]⟩
  | illegal hill =>
    have hacts : actsOf s i = [.setIllegalOp, .complete statusErrIllegalOp] := by
      obtain ⟨r, h⟩ | ⟨u, h⟩ | ⟨u, h⟩ | ⟨v, h⟩ := isIllegal_iff.mp hill <;> cases h <;> rfl
    rw [hacts]
    exact ⟨fun _ => rfl, by simp⟩

/-! ### The events of one instruction -/

theorem wellFramed_append_left {f : FrameState} {es es' : List Event} (h : wellFramed f (es ++ es') = true) :
    wellFramed f es = true := by
  rw [wellFramed, FrameState.run_append] at h
  cases hes : f.run es with
  | none => simp [hes] at h
  | some f' => simp [wellFramed, hes]

/-- A failing call does not touch the framing (R110). -/
theorem FrameState.run_tFail (f : FrameState) (c : TCall) : f.run [.tFail c] = some f := by cases f <;> rfl

theorem State.effects_framing (as : List Act) (s : State) : ∃ evs, (s.effects as).trace = s.trace ++ evs ∧
    ∀ f : FrameState, f.run evs = f.run (as.flatMap Act.events) := by
  induction as generalizing s with
  | nil => exact ⟨[], by simp [State.effects], fun _ => rfl⟩
  | cons a as ih =>
    obtain ⟨evs₁, htrace₁, hrun₁⟩ := s.countAct.effect_framing a
    obtain ⟨evs₂, htrace₂, hrun₂⟩ := ih (s.countAct.effect a)
    refine ⟨evs₁ ++ evs₂, ?_, fun f => ?_⟩
    · rw [htrace₁, State.countAct_trace, List.append_assoc] at htrace₂
      exact htrace₂
    · simp only [List.flatMap_cons, FrameState.run_append, hrun₁, hrun₂]

/-- However acts that keep R117 end, the events they emitted keep it. -/
theorem State.perform_wellFramed {f : FrameState} {as : List Act} (s : State)
    (h : wellFramed f (as.flatMap Act.events) = true) :
    ∃ evs, (State.perform as s).trace = s.trace ++ evs ∧ wellFramed f evs = true := by
  have hpre : ∀ pre rest, as = pre ++ rest →
      ∃ evs, (s.effects pre).trace = s.trace ++ evs ∧ wellFramed f evs = true := by
    rintro pre rest rfl
    obtain ⟨evs, htrace, hrun⟩ := s.effects_framing pre
    rw [List.flatMap_append] at h
    exact ⟨evs, htrace, by rw [wellFramed, hrun]; exact wellFramed_append_left h⟩
  rcases State.perform_cases as s with hp | ⟨pre, rest, ps, has, -, -, hp⟩ | ⟨pre, c, rest, has, hp⟩ |
    ⟨pre, c, rest, has, hp⟩ <;> rw [hp]
  · exact hpre as [] (by simp)
  · exact hpre pre rest has
  · obtain ⟨evs, htrace, hevs⟩ := hpre pre _ has
    obtain ⟨f', hf'⟩ := Option.isSome_iff_exists.mp hevs
    refine ⟨evs ++ [.tFail c], by simp [State.failCall, htrace], ?_⟩
    rw [wellFramed, FrameState.run_append, hf']
    simp [FrameState.run_tFail]
  · simpa using hpre pre _ has

theorem State.Begins.trace_eq {s s' : State} (h : s.Begins s') : s'.trace = s.trace := by cases h <;> rfl

/-- The events of one instruction keep R117: from outside a frame, and those of SETUP from anywhere. -/
theorem exec_wellFramed {i : Instr} {s t : State} {f : FrameState} (hf : f ≠ .opened ∨ i = .setup)
    (h : exec i s = .next t) : ∃ evs, t.trace = s.trace ++ evs ∧ wellFramed f evs = true := by
  have hacts : wellFramed f ((actsOf s i).flatMap Act.events) = true := by
    rcases hf with hf | rfl
    · obtain ⟨f', hrun, -⟩ := actsOf_keepsFramesShut s i f hf
      simp [wellFramed, hrun]
    · simp only [actsOf]
      split
      · rfl
      · next rom _ =>
        obtain ⟨f', hrun, -⟩ := setupActs_shuts s.cfg rom f
        simp [wellFramed, hrun]
  rcases exec_cases h with rfl | ⟨a, -, rfl⟩ | ⟨s', hb, rfl⟩
  · exact ⟨[], by simp, rfl⟩
  · exact ⟨[], by simp, rfl⟩
  · exact hb.trace_eq ▸ State.perform_wellFramed s' hacts

/-! ### The invariant, for the acts still to do -/

/-- What `State.Framed` says of the trace and the flags, with `as` for the acts still to do. -/
def State.FramedAhead (as : List Act) (s : State) : Prop :=
  ∃ f f' : FrameState, FrameState.run .closed s.trace = some f ∧ f.run (as.flatMap Act.events) = some f' ∧
    (s.frameOpen = true → f = .opened) ∧ (f' = .opened → s.ready = false ∧ Act.setReady true ∉ as)

theorem State.framed_iff (s : State) : s.Framed ↔ s.PortsOnly ∧ s.FramedAhead s.work := Iff.rfl

theorem State.FramedAhead.of_eq {as : List Act} {s t : State} (h : s.FramedAhead as) (htrace : t.trace = s.trace)
    (hopen : t.frameOpen = s.frameOpen) (hready : t.ready = s.ready) : t.FramedAhead as := by
  unfold State.FramedAhead
  rw [htrace, hopen, hready]
  exact h

/-- After an abort or a reset: nothing pending, not ready, whatever frame is open. -/
theorem State.FramedAhead.of_not_ready {as : List Act} {s t : State} (h : s.FramedAhead as)
    (htrace : FrameState.run .closed t.trace = FrameState.run .closed s.trace)
    (hopen : t.frameOpen = true → s.frameOpen = true) (hready : t.ready = false) : t.FramedAhead [] := by
  obtain ⟨f, -, hrun, -, hf, -⟩ := h
  exact ⟨f, f, htrace.trans hrun, rfl, fun ho => hf (hopen ho), fun _ => ⟨hready, by simp⟩⟩

/-- FRAME_OPEN is 1 only inside a frame, after an act too (R110). -/
theorem State.effect_frameOpen {a : Act} {s : State} {f f' : FrameState} (hf : s.frameOpen = true → f = .opened)
    (hrun : f.run a.events = some f') (h : (s.effect a).frameOpen = true) : f' = .opened := by
  cases a with
  | tcall c =>
    cases c with
    | cfg | frameEnd => cases h
    | frameBegin => cases f <;> cases hrun; rfl
    | write b => cases hf h; cases hrun; rfl
  | pinWrite p l =>
    cases hf (by simpa [State.effect, State.pinWrite] using h)
    cases p <;> cases hrun <;> rfl
  | _ =>
    cases hf (by simpa [State.effect, State.pinConfigure] using h)
    cases hrun
    rfl

theorem State.effect_ready {a : Act} {s : State} (hs : s.ready = false) (ha : a ≠ .setReady true) :
    (s.effect a).ready = false := by
  cases a <;> simp_all [State.effect, State.pinConfigure, State.pinWrite]

theorem State.FramedAhead.effect {a : Act} {as : List Act} {s : State} (h : s.FramedAhead (a :: as)) :
    (s.effect a).FramedAhead as := by
  obtain ⟨f, f', htrace, hrun, hopen, hready⟩ := h
  obtain ⟨evs, hevs, hframing⟩ := s.effect_framing a
  rw [List.flatMap_cons, FrameState.run_append] at hrun
  obtain ⟨f₁, hrun₁, hrun₂⟩ := Option.bind_eq_some_iff.mp hrun
  refine ⟨f₁, f', ?_, hrun₂, State.effect_frameOpen hopen hrun₁, fun hf' => ?_⟩
  · rw [hevs, FrameState.run_append, htrace, Option.bind_some, hframing, hrun₁]
  · obtain ⟨hs, hnot⟩ := hready hf'
    rw [List.mem_cons, not_or] at hnot
    exact ⟨State.effect_ready hs (Ne.symm hnot.1), hnot.2⟩

theorem State.FramedAhead.effects {pre rest : List Act} {s : State} (h : s.FramedAhead (pre ++ rest)) :
    (s.effects pre).FramedAhead rest := by
  induction pre generalizing s with
  | nil => exact h
  | cons a pre ih =>
    have hcount : s.countAct.FramedAhead (a :: (pre ++ rest)) :=
      h.of_eq s.countAct_trace s.countAct_frameOpen s.countAct_ready
    exact ih hcount.effect

theorem State.FramedAhead.abort {as : List Act} {s : State} (h : s.FramedAhead as) (c : TCall) :
    ((s.failCall c).abortTransport).FramedAhead [] := by
  refine h.of_not_ready ?_ id rfl
  obtain ⟨f, -, hrun, -⟩ := h
  simp [State.failCall, FrameState.run_append, hrun, FrameState.run_tFail]

@[simp] theorem State.effect_work (a : Act) (s : State) : (s.effect a).work = s.work := by
  cases a <;> simp [State.effect, State.pinConfigure, State.pinWrite]

@[simp] theorem State.effects_work (as : List Act) (s : State) : (s.effects as).work = s.work := by
  induction as generalizing s with
  | nil => rfl
  | cons a as ih => exact (ih _).trans (by simp)

/-- However a run of acts ends, the trace and what is left to do keep the invariant. -/
theorem State.FramedAhead.perform {as : List Act} {s : State} (h : s.FramedAhead as) (hw : s.work = []) :
    (State.perform as s).FramedAhead (State.perform as s).work := by
  rcases State.perform_cases as s with hp | ⟨pre, rest, ps, rfl, -, -, hp⟩ | ⟨pre, c, rest, rfl, hp⟩ |
    ⟨pre, c, rest, rfl, hp⟩ <;> rw [hp]
  · rw [State.effects_work, hw]
    exact State.FramedAhead.effects (rest := []) (by simpa using h)
  · simp only [State.effects_work, hw, List.append_nil]
    exact h.effects.of_eq rfl rfl rfl
  · exact State.FramedAhead.abort (h.effects.of_eq (by simp) (by simp) (by simp)) c
  · simp only [State.effects_work, hw, List.append_nil]
    exact h.effects.of_eq (by simp) (by simp) (by simp)

/-! ### The step -/

@[simp] theorem State.effect_inputs (a : Act) (s : State) : (s.effect a).inputs = s.inputs := by
  cases a <;> simp [State.effect, State.pinConfigure, State.pinWrite]

/-- Running acts takes nothing the outside presents. -/
@[simp] theorem State.perform_inputs (as : List Act) (s : State) : (State.perform as s).inputs = s.inputs :=
  State.perform_keeps (P := fun t => t.inputs = s.inputs) rfl (fun _ _ _ h => by simpa using h)
    (fun _ _ h => by simpa [State.failCall] using h) (fun _ _ _ _ _ h => h)

theorem State.Framed.of_perform {as : List Act} {s : State} (h : s.FramedAhead as) (hw : s.work = [])
    (hports : s.PortsOnly) : (State.perform as s).Framed :=
  ⟨fun i hi => hports i (s.perform_inputs as ▸ hi), h.perform hw⟩

theorem State.work_of_accepts {s : State} (h : s.accepts = true) : s.work = [] := by
  have := ((State.accepts_iff s).mp h).2
  simp_all [State.inProgress]

/-- An operation of the port, begun with nothing pending: ready, it starts and ends outside a frame; not ready, only SETUP
does anything that a frame takes note of. -/
theorem State.FramedAhead.actsOf {s : State} {w : Descriptor} {i : Instr} (h : s.FramedAhead [])
    (hd : decodeDescriptor w = .ok i) : s.FramedAhead (actsOf s i) := by
  obtain ⟨f, f', htrace, hrun, hopen, hready⟩ := h
  obtain rfl : f = f' := Option.some.inj hrun
  by_cases hf : f = .opened
  · by_cases hi : i = .setup
    · subst hi
      simp only [Machine.actsOf]
      split
      · exact ⟨f, f, htrace, rfl, hopen, hready⟩
      · next rom _ =>
        obtain ⟨f', hrun', hf'⟩ := setupActs_shuts s.cfg rom f
        exact ⟨f, f', htrace, hrun', hopen, fun ho => absurd ho hf'⟩
    · obtain ⟨huntouched, hnot⟩ := actsOf_of_not_ready (hready hf).1 hd hi
      exact ⟨f, f, htrace, huntouched f, hopen, fun _ => ⟨(hready hf).1, hnot⟩⟩
  · obtain ⟨f', hrun', hf'⟩ := actsOf_keepsFramesShut s i f hf
    exact ⟨f, f', htrace, hrun', hopen, fun ho => absurd ho hf'⟩

theorem State.Framed.exec {s t : State} {w : Descriptor} {i : Instr} (hs : s.Framed) (hw : s.work = [])
    (hd : decodeDescriptor w = .ok i) (h : exec i s = .next t) : t.Framed := by
  obtain ⟨hports, hahead⟩ := s.framed_iff.mp hs
  rw [hw] at hahead
  rcases exec_cases h with rfl | ⟨a, -, rfl⟩ | ⟨s', hb, rfl⟩
  · exact hs
  · exact hs
  · have hacts := hahead.actsOf hd
    cases hb with
    | micro => exact .of_perform hacts hw hports
    | accepted l _ => exact .of_perform (hacts.of_eq rfl rfl rfl) hw hports
    | rejected _ => exact .of_perform (hacts.of_eq rfl rfl rfl) hw hports

theorem State.Framed.rejectDescriptor {s t : State} (hs : s.Framed) (hw : s.work = [])
    (h : s.rejectDescriptor = .next t) : t.Framed := by
  obtain ⟨hports, f, f', htrace, hrun, hopen, hready⟩ := hs
  rcases State.rejectDescriptor_cases h with ⟨-, rfl⟩ | ⟨-, rfl⟩
  · exact ⟨hports, f, f', htrace, hrun, hopen, hready⟩
  · rw [hw] at hrun hready
    exact .of_perform ⟨f, f', htrace, hrun, hopen, fun ho => ⟨(hready ho).1, by simp⟩⟩ hw hports

theorem State.Framed.driveReset {s : State} (hs : s.Framed) (l : Bool) : (s.driveReset l).Framed := by
  obtain ⟨hports, hahead⟩ := s.framed_iff.mp hs
  rcases State.driveReset_cases l s with ⟨-, h⟩ | ⟨-, -, h⟩ | ⟨-, -, h⟩ <;> rw [h]
  · exact hs
  · exact ⟨hports, hahead.of_not_ready rfl (by simp) rfl⟩
  · exact ⟨hports, hahead.of_not_ready rfl (by simp) rfl⟩

theorem State.Framed.resume {s : State} (hs : s.Framed) : s.resume.Framed :=
  .of_perform (hs.2 : s.FramedAhead s.work) rfl hs.1

/-- Some of what is presented is taken: the rest still comes in by the block's own ports. -/
theorem State.Framed.inputs {s : State} {ins : List Input} (hs : s.Framed) (h : ∀ i ∈ ins, i ∈ s.inputs) :
    ({ s with opDone := false, inputs := ins } : State).Framed :=
  ⟨fun i hi => hs.1 i (h i hi), hs.2⟩

theorem step_keeps_framed {s t : State} (hs : s.Framed) (h : step s = .next t) : t.Framed := by
  have htail : ∀ {x : Input} {rest : List Input}, s.inputs = x :: rest →
      ({ s with opDone := false, inputs := rest } : State).Framed :=
    fun hi => hs.inputs fun _ hmem => by simp [hi, hmem]
  rcases step_cases h with ⟨l, rest, hi, rfl⟩ | ⟨a, rest, hi, hex⟩ | ⟨c, i, rest, hi, ha, hd, hex⟩ |
    ⟨w, r, rest, hi, ha, -, hrej⟩ | ⟨ins, hi, -, -, -, rfl⟩ | ⟨ins, hi, rfl⟩
  · exact (htail hi).driveReset l
  · cases hex
    exact htail hi
  · obtain ⟨w, hw⟩ | ⟨a, ha'⟩ | ⟨l, hl⟩ | hp := hs.1 (.code c) (by simp [hi])
    · cases hw
      exact (htail hi).exec (State.work_of_accepts ha) hd hex
    · cases ha'
      cases hd
      cases hex
      exact htail hi
    · cases hl
    · cases hp
  · exact (htail hi).rejectDescriptor (State.work_of_accepts ha) hrej
  · refine State.Framed.resume (hs.inputs fun i hmem => ?_)
    rcases hi with rfl | hi
    · exact hmem
    · simp [hi, hmem]
  · refine hs.inputs fun i hmem => ?_
    rcases hi with ⟨rfl, -⟩ | hi
    · exact hmem
    · simp [hi, hmem]

/-- Settles O26: every run of acts keeps the invariant, and every step is such a run, a reset, a read or a wait. -/
theorem framingDisciplineKept : Obligations.FramingDisciplineKept := by
  refine ⟨fun s t => step_keeps_framed, fun i s t hf h => exec_wellFramed ?_ h⟩
  rcases hf with hclosed | hsetup
  · exact .inl (by simp [hclosed])
  · exact .inr hsetup

end Sys2Proof.Machine
end

section
/-! PROOFS. What acts leave behind when every call answers OK: trace, panel, FRAME_OPEN and DC_LVL by their events; and
what is left when a call of theirs fails (R110, R213). -/

namespace Sys2Proof.Machine

/-! ### Streams of events, one after the other -/

theorem frameAfter_append (wasOpen : Bool) (es fs : List Event) :
    frameAfter wasOpen (es ++ fs) = frameAfter (frameAfter wasOpen es) fs := List.foldl_append

theorem levelAfter_append (p : Pin) (l : Bool) (es fs : List Event) :
    levelAfter p l (es ++ fs) = levelAfter p (levelAfter p l es) fs := List.foldl_append

/-- The level of DC that the panel sees is the pin's (R57, R111). -/
theorem foldl_dcAfter (dc : Bool) (es : List Event) : es.foldl dcAfter dc = levelAfter .dc dc es := by
  unfold levelAfter
  congr
  funext dc e
  cases e with
  | pin p l => cases p <;> rfl
  | _ => rfl

/-- How many transport calls stand behind a stream of events (R110). -/
def callCount (es : List Event) : Nat := (es.filterMap Event.call).length

theorem callCount_append (es fs : List Event) : callCount (es ++ fs) = callCount es + callCount fs := by
  simp [callCount]

theorem beforeCall_append_of_no_call {es : List Event} (h : es.filterMap Event.call = []) (k : Nat)
    (fs : List Event) : beforeCall k (es ++ fs) = es ++ beforeCall k fs := by
  induction es with
  | nil => rfl
  | cons e es ih =>
    obtain ⟨he, hes⟩ : e.call = none ∧ es.filterMap Event.call = [] := by
      cases he : e.call <;> simp_all
    cases k <;> simp [beforeCall, he, ih hes]

theorem nthCall_append_of_no_call {es : List Event} (h : es.filterMap Event.call = []) (k : Nat)
    (fs : List Event) : nthCall k (es ++ fs) = nthCall k fs := by
  simp [nthCall, h]

@[simp] theorem TCall.event_call (c : TCall) : c.event.call = some c := by cases c <;> rfl

@[simp] theorem nthCall_zero_event (c : TCall) (es : List Event) : nthCall 0 (c.event :: es) = some c := by
  simp [nthCall]

@[simp] theorem nthCall_succ_event (k : Nat) (c : TCall) (es : List Event) :
    nthCall (k + 1) (c.event :: es) = nthCall k es := by
  simp [nthCall]

@[simp] theorem beforeCall_zero_event (c : TCall) (es : List Event) : beforeCall 0 (c.event :: es) = [] := by
  simp [beforeCall]

@[simp] theorem beforeCall_succ_event (k : Nat) (c : TCall) (es : List Event) :
    beforeCall (k + 1) (c.event :: es) = c.event :: beforeCall k es := by
  simp [beforeCall]

/-! ### What acts leave behind -/

/-- `t` is reached from `s` by emitting the events `evs`, which account for TRACE, the panel, FRAME_OPEN and DC_LVL. -/
structure State.Emits (s : State) (evs : List Event) (t : State) : Prop where
  cfg : t.cfg = s.cfg
  trace : t.trace = s.trace ++ evs
  ghost : t.ghost = s.observed evs
  frameOpen : t.frameOpen = frameAfter s.frameOpen evs
  dcLvl : t.dcLvl = levelAfter .dc s.dcLvl evs

theorem State.Emits.refl (s : State) : s.Emits [] s := ⟨rfl, by simp, rfl, rfl, rfl⟩

theorem State.observed_append (s : State) (es fs : List Event) :
    s.observed (es ++ fs) = Ghost.observeAll s.cfg.codes (levelAfter .dc s.dcLvl es) fs (s.observed es) := by
  rw [State.observed, Ghost.observeAll_append, foldl_dcAfter]
  rfl

theorem State.Emits.observed {s t : State} {es : List Event} (h : s.Emits es t) (fs : List Event) :
    t.observed fs = s.observed (es ++ fs) := by
  rw [State.observed_append, State.observed, h.cfg, h.dcLvl, h.ghost]

theorem State.Emits.trans {s t u : State} {es fs : List Event} (h : s.Emits es t) (h' : t.Emits fs u) :
    s.Emits (es ++ fs) u where
  cfg := h'.cfg.trans h.cfg
  trace := by rw [h'.trace, h.trace, List.append_assoc]
  ghost := h'.ghost.trans (h.observed fs)
  frameOpen := by rw [h'.frameOpen, h.frameOpen, frameAfter_append]
  dcLvl := by rw [h'.dcLvl, h.dcLvl, levelAfter_append]

/-- Every act but the report, whose event holds the registers at that moment, leaves behind what its events say. -/
theorem State.effect_emits {a : Act} (ha : a ≠ .emitReport) (s : State) : s.Emits a.events (s.effect a) := by
  cases a with
  | emitReport => exact absurd rfl ha
  | tcall c => cases c <;> exact ⟨rfl, rfl, rfl, rfl, rfl⟩
  | pinWrite p l => cases p <;> exact ⟨rfl, rfl, rfl, rfl, rfl⟩
  | pinConfigure p => cases p <;> exact ⟨rfl, rfl, rfl, rfl, rfl⟩
  | wait k ms => exact ⟨rfl, rfl, rfl, rfl, rfl⟩
  | emitWarn => exact ⟨rfl, rfl, rfl, rfl, rfl⟩
  | _ => exact ⟨rfl, by simp [State.effect, Act.events], rfl, rfl, rfl⟩

theorem State.countAct_of_no_pauses {s : State} (h : s.pauses = []) : s.countAct = s := by
  unfold State.countAct
  rw [h]

theorem State.effects_cons {s : State} (h : s.pauses = []) (a : Act) (as : List Act) :
    s.effects (a :: as) = (s.effect a).effects as := by
  rw [State.effects, List.foldl_cons, State.countAct_of_no_pauses h]
  rfl

/-- Undisturbed, a run of acts is their effects in order. -/
theorem State.perform_eq_effects {s : State} (h : s.Undisturbed) (as : List Act) :
    State.perform as s = s.effects as := by
  rw [State.perform_undisturbed h]
  induction as generalizing s with
  | nil => rfl
  | cons a as ih => rw [State.effects_cons h.2.2, List.foldl_cons, ih (h.effect a)]

theorem State.effects_emits {as : List Act} {s : State} (hp : s.pauses = []) (hrep : Act.emitReport ∉ as) :
    s.Emits (as.flatMap Act.events) (s.effects as) := by
  induction as generalizing s with
  | nil => exact .refl s
  | cons a as ih =>
    obtain ⟨ha, has⟩ : Act.emitReport ≠ a ∧ Act.emitReport ∉ as := by simpa using hrep
    rw [State.effects_cons hp]
    exact (State.effect_emits ha.symm s).trans (ih ((State.effect_pauses a s).trans hp) has)

/-- Every call answered OK takes one answer from the oracle (R6). -/
theorem State.effect_transport (a : Act) (s : State) :
    (s.effect a).transport = s.transport.after (callCount a.events) := by
  cases a with
  | tcall c => cases c <;> simp [State.effect, Transport.next, Transport.after, callCount, Act.events]
  | pinConfigure p => cases p <;> rfl
  | pinWrite p l => cases p <;> rfl
  | _ => rfl

theorem State.effects_transport {as : List Act} {s : State} (hp : s.pauses = []) :
    (s.effects as).transport = s.transport.after (callCount (as.flatMap Act.events)) := by
  induction as generalizing s with
  | nil => rfl
  | cons a as ih =>
    rw [State.effects_cons hp, ih ((State.effect_pauses a s).trans hp), State.effect_transport, List.flatMap_cons,
      callCount_append]
    simp [Transport.after]

theorem runCntAfter_append (k : BitVec 32) (as bs : List Act) :
    runCntAfter k (as ++ bs) = runCntAfter (runCntAfter k as) bs := by
  induction as generalizing k with
  | nil => rfl
  | cons a as ih => cases a <;> exact ih _

theorem State.effect_runCnt (a : Act) (s : State) : (s.effect a).runCnt = runCntAfter s.runCnt [a] := by
  cases a with
  | pinConfigure p => cases p <;> rfl
  | pinWrite p l => cases p <;> rfl
  | _ => rfl

theorem State.effects_runCnt {as : List Act} {s : State} (hp : s.pauses = []) :
    (s.effects as).runCnt = runCntAfter s.runCnt as := by
  induction as generalizing s with
  | nil => rfl
  | cons a as ih =>
    rw [State.effects_cons hp, ih ((State.effect_pauses a s).trans hp), State.effect_runCnt, ← runCntAfter_append]
    rfl

/-! ### Acts of the framing layer -/

/-- Lists of the primitives that the framing micro-operations and REG_WRITE are made of (R110 to R112, R116). -/
inductive WireActs : List Act → Prop
  | nil : WireActs []
  | dc (l : Bool) {as : List Act} : WireActs as → WireActs (.pinWrite .dc l :: as)
  | call (c : TCall) {as : List Act} : WireActs as → WireActs (.tcall c :: as)
  | wait (k : WaitReason) (ms : Half) {as : List Act} : WireActs as → WireActs (.wait k ms :: as)
  | runLoad (n : BitVec 32) {as : List Act} : WireActs as → WireActs (.runLoad n :: as)
  | runNext {as : List Act} : WireActs as → WireActs (.runNext :: as)

theorem WireActs.append {as bs : List Act} (ha : WireActs as) (hb : WireActs bs) : WireActs (as ++ bs) := by
  induction ha with
  | nil => exact hb
  | dc l _ ih => exact .dc l ih
  | call c _ ih => exact .call c ih
  | wait k ms _ ih => exact .wait k ms ih
  | runLoad n _ ih => exact .runLoad n ih
  | runNext _ ih => exact .runNext ih

theorem WireActs.emitReport_notMem {as : List Act} (h : WireActs as) : Act.emitReport ∉ as := by
  induction h <;> simp_all

/-- The state after acts of the framing layer: they change nothing but what is named here. -/
def State.afterWire (s : State) (as : List Act) : State :=
  { s.emitted (as.flatMap Act.events) with
    dcLvl := levelAfter .dc s.dcLvl (as.flatMap Act.events)
    frameOpen := frameAfter s.frameOpen (as.flatMap Act.events)
    runCnt := runCntAfter s.runCnt as
    transport := s.transport.after (callCount (as.flatMap Act.events)) }

theorem WireActs.effects_frame {as : List Act} (h : WireActs as) {s : State} (hp : s.pauses = []) :
    s.effects as = { s with
      trace := (s.effects as).trace, ghost := (s.effects as).ghost, dcLvl := (s.effects as).dcLvl,
      frameOpen := (s.effects as).frameOpen, runCnt := (s.effects as).runCnt,
      transport := (s.effects as).transport } := by
  induction h generalizing s with
  | nil => rfl
  | dc _ _ ih | call _ _ ih | wait _ _ _ ih | runLoad _ _ ih | runNext _ ih =>
    rw [State.effects_cons hp]
    exact ih ((State.effect_pauses _ s).trans hp)

theorem WireActs.perform {as : List Act} (h : WireActs as) {s : State} (hs : s.Undisturbed) :
    State.perform as s = s.afterWire as := by
  have hp := hs.2.2
  have hemits := State.effects_emits hp h.emitReport_notMem
  rw [State.perform_eq_effects hs, h.effects_frame hp, hemits.trace, hemits.ghost, hemits.dcLvl, hemits.frameOpen,
    State.effects_runCnt hp, State.effects_transport hp]
  rfl

/-! ### A failing call -/

/-- `t` is what is left of a run from `s` whose call `c` fails after the events `evs` (R110, R213). -/
structure State.AbortsAfter (s : State) (evs : List Event) (c : TCall) (later : List Answer) (t : State) : Prop where
  trace : t.trace = s.trace ++ evs ++ [.tFail c]
  script : t.transport.script = later
  ready : t.ready = false
  errTransport : t.errTransport = true
  runCnt : t.runCnt = 0
  frameOpen : t.frameOpen = frameAfter s.frameOpen evs
  dcLvl : t.dcLvl = levelAfter .dc s.dcLvl evs
  ghost : t.ghost = s.observed (evs ++ [.tFail c])

theorem State.abortsAfter_failCall {s : State} {later : List Answer} (c : TCall)
    (h : s.transport.script = .fail :: later) : s.AbortsAfter [] c later (s.failCall c).abortTransport where
  trace := by simp [State.failCall]
  script := by simp [State.failCall, Transport.next, h]
  ready := rfl
  errTransport := rfl
  runCnt := rfl
  frameOpen := rfl
  dcLvl := rfl
  ghost := rfl

theorem State.AbortsAfter.of_emits {s s' t : State} {es evs : List Event} {c : TCall} {later : List Answer}
    (hs : s.Emits es s') (h : s'.AbortsAfter evs c later t) : s.AbortsAfter (es ++ evs) c later t where
  trace := by rw [h.trace, hs.trace]; simp
  script := h.script
  ready := h.ready
  errTransport := h.errTransport
  runCnt := h.runCnt
  frameOpen := by rw [h.frameOpen, hs.frameOpen, frameAfter_append]
  dcLvl := by rw [h.dcLvl, hs.dcLvl, levelAfter_append]
  ghost := by rw [h.ghost, hs.observed, List.append_assoc]

theorem State.perform_cons_of_done {s s' : State} {a : Act} (hp : s.pauses = []) (h : s.act a = .done s')
    (as : List Act) : State.perform (a :: as) s = State.perform as s' := by
  rw [State.perform, hp]
  simp only [State.countAct_of_no_pauses hp, h]

theorem State.perform_cons_of_failed {s s' : State} {a : Act} (hp : s.pauses = []) (h : s.act a = .failed s')
    (as : List Act) : State.perform (a :: as) s = s'.abortTransport := by
  rw [State.perform, hp]
  simp only [State.countAct_of_no_pauses hp, h]

/-- An act that makes no call is done, and takes no answer. -/
theorem State.act_of_no_call {a : Act} (s : State) (h : a.events.filterMap Event.call = []) :
    s.act a = .done (s.effect a) ∧ (s.effect a).transport = s.transport := by
  cases a with
  | tcall c => simp [Act.events] at h
  | _ => exact ⟨rfl, by simp [State.effect, State.pinConfigure, State.pinWrite]⟩

/-- Whichever call of a run fails, the run is aborted there. -/
theorem State.perform_aborts {as : List Act} {s : State} {k : Nat} {c : TCall} {later : List Answer}
    (hs : s.Answers k .fail later) (hrep : Act.emitReport ∉ as) (hc : nthCall k (as.flatMap Act.events) = some c) :
    s.AbortsAfter (beforeCall k (as.flatMap Act.events)) c later (State.perform as s) := by
  induction as generalizing s k with
  | nil => simp [nthCall] at hc
  | cons a as ih =>
    obtain ⟨hp, hscript⟩ := hs
    obtain ⟨ha, has⟩ : Act.emitReport ≠ a ∧ Act.emitReport ∉ as := by simpa using hrep
    have hp' : (s.effect a).pauses = [] := (State.effect_pauses a s).trans hp
    have hemits := State.effect_emits ha.symm s
    rw [List.flatMap_cons] at hc ⊢
    by_cases hcall : a.events.filterMap Event.call = []
    · obtain ⟨hact, htr⟩ := s.act_of_no_call hcall
      rw [nthCall_append_of_no_call hcall] at hc
      rw [State.perform_cons_of_done hp hact, beforeCall_append_of_no_call hcall]
      exact (ih ⟨hp', htr ▸ hscript⟩ has hc).of_emits hemits
    · obtain ⟨c', rfl⟩ : ∃ c', a = .tcall c' := by cases a <;> simp_all [Act.events, Event.call]
      simp only [Act.events, List.singleton_append] at hc ⊢
      cases k with
      | zero =>
        obtain rfl : c' = c := by simpa using hc
        have hact : s.act (.tcall c') = .failed (s.failCall c') := by
          simp [State.act, State.tcall, Transport.answer, hscript, State.failCall]
        rw [State.perform_cons_of_failed hp hact, beforeCall_zero_event]
        exact State.abortsAfter_failCall c' hscript
      | succ k =>
        have hok : s.transport.answer = .ok := by simp [Transport.answer, hscript, List.replicate_succ]
        have hscript' : (s.effect (.tcall c')).transport.script = List.replicate k .ok ++ .fail :: later := by
          simp [State.effect, Transport.next, hscript, List.replicate_succ]
        rw [nthCall_succ_event] at hc
        rw [State.perform_cons_of_done hp (State.act_of_answer_ok _ hok), beforeCall_succ_event]
        exact (ih ⟨hp', hscript'⟩ has hc).of_emits hemits

/-- A micro-operation's calls fail along its trace. -/
theorem State.failsAlong_of_micro {s : State} {i : Instr} {as : List Act} (hi : exec i s = s.micro as)
    (hrep : Act.emitReport ∉ as) : s.FailsAlong i (as.flatMap Act.events) := by
  intro k c later hs hc
  obtain ⟨htrace, hscript, hready, herr, hrun, hopen, hdc, hghost⟩ := State.perform_aborts hs hrep hc
  exact ⟨_, hi, htrace, hscript, hready, herr, hrun, hopen, hdc, hghost⟩

end Sys2Proof.Machine
end

section
/-! PROOFS. The four framing micro-operations (R113 to R116). -/

namespace Sys2Proof.Machine

/-- A micro-operation of the framing layer: what it comes to undisturbed, and where its calls fail. -/
theorem WireActs.exec {as : List Act} (h : WireActs as) {s : State} {i : Instr} (hi : exec i s = s.micro as) :
    (s.Undisturbed → Machine.exec i s = .next (s.afterWire as)) ∧ s.FailsAlong i (as.flatMap Act.events) :=
  ⟨fun hs => by rw [hi, State.micro, h.perform hs], State.failsAlong_of_micro hi h.emitReport_notMem⟩

theorem sendCommandActs_wire (b : Byte) : WireActs (sendCommandActs b) :=
  .dc false <| .call _ <| .call _ <| .call _ .nil

theorem sendDataActs_wire (b : Byte) : WireActs (sendDataActs b) :=
  .dc true <| .call _ <| .call _ <| .call _ .nil

theorem sendData16Acts_wire (w : Half) : WireActs (sendData16Acts w) :=
  .dc true <| .call _ <| .call _ <| .call _ <| .call _ .nil

/-- Settles O21: the acts of SEND_COMMAND are of the framing layer, with R113's events. -/
theorem sendCommandCompletes : Obligations.SendCommandCompletes := fun _ b => (sendCommandActs_wire b).exec rfl

/-- Settles O22, as O21, with R114's events. -/
theorem sendDataCompletes : Obligations.SendDataCompletes := fun _ b => (sendDataActs_wire b).exec rfl

/-- Settles O23, as O21, with R115's events. -/
theorem sendData16Completes : Obligations.SendData16Completes := fun _ w => (sendData16Acts_wire w).exec rfl

/-! ### The colour run -/

/-- The bytes of `n` units of colour `c`. -/
def unitBytes (c : Half) (n : Nat) : List Byte := (List.replicate n [hiByte c, loByte c]).flatten

theorem length_unitBytes (c : Half) (n : Nat) : (unitBytes c n).length = 2 * n := by
  simp [unitBytes, Nat.mul_comm]

theorem unitEvents_eq (c : Half) (n : Nat) : unitEvents c n = (unitBytes c n).map .byte := by
  simp [unitEvents, unitBytes, List.map_flatten]

theorem runEvents_eq (c : Half) (n : Nat) :
    runEvents c n = .pin .dc true :: .frameBegin :: ((unitBytes c n).map .byte ++ [.frameEnd]) := by
  simp [runEvents, unitEvents_eq]

theorem sendColorRunActs_events (c : Half) (n : BitVec 32) :
    (sendColorRunActs c n).flatMap Act.events = runEvents c n.toNat := by
  have hunits : ∀ k, (colorUnitActs c k).flatMap Act.events = unitEvents c k := by
    intro k
    induction k with
    | zero => rfl
    | succ k ih => simp [colorUnitActs, Act.events, TCall.event, ih, unitEvents, List.replicate_succ]
  simp [sendColorRunActs, runEvents, hunits, Act.events, TCall.event]

/-- RUN_CNT counts the units down (R116). -/
theorem runCntAfter_colorUnitActs (c : Half) (k : Nat) (m : BitVec 32) :
    runCntAfter m (colorUnitActs c k) = m - BitVec.ofNat 32 k := by
  induction k generalizing m with
  | zero => exact (BitVec.sub_zero m).symm
  | succ k ih =>
    refine (ih (m - 1)).trans ?_
    rw [BitVec.ofNat_add]
    bv_omega

theorem sendColorRunActs_runCnt (c : Half) (n m : BitVec 32) : runCntAfter m (sendColorRunActs c n) = 0 := by
  have hunits : runCntAfter n (colorUnitActs c n.toNat) = 0 := by simp [runCntAfter_colorUnitActs]
  rw [sendColorRunActs, runCntAfter_append, runCntAfter_append]
  exact hunits

theorem sendColorRunActs_wire (c : Half) (n : BitVec 32) : WireActs (sendColorRunActs c n) := by
  have hunits : ∀ k, WireActs (colorUnitActs c k) := by
    intro k
    induction k with
    | zero => exact .nil
    | succ k ih => exact .call _ <| .call _ <| .runNext ih
  exact .dc true <| .call _ <| .runLoad n <| (hunits _).append <| .call _ .nil

/-! Bytes alone leave the pins as they are, and are each one call and one wire unit. -/

theorem levelAfter_bytes (p : Pin) (l : Bool) (bs : List Byte) : levelAfter p l (bs.map .byte) = l := by
  simp [levelAfter, List.foldl_map]

theorem callCount_bytes (bs : List Byte) : callCount (bs.map .byte) = bs.length := by
  simp [callCount, List.filterMap_map, Function.comp_def, Event.call]

theorem wireFrom_bytes_append (dc : Bool) (bs : List Byte) (es : List Event) :
    wireFrom dc (bs.map .byte ++ es) = bs.map (dc, ·) ++ wireFrom dc es := by
  induction bs with
  | nil => rfl
  | cons b bs ih => simp [wireFrom, ih]

theorem frameAfter_runEvents (wasOpen : Bool) (c : Half) (n : Nat) : frameAfter wasOpen (runEvents c n) = false := by
  simp [runEvents, frameAfter]

theorem levelAfter_runEvents (l : Bool) (c : Half) (n : Nat) : levelAfter .dc l (runEvents c n) = true := by
  rw [runEvents_eq]
  exact (levelAfter_append .dc true _ _).trans (levelAfter_bytes .dc true _)

theorem callCount_runEvents (c : Half) (n : Nat) : callCount (runEvents c n) = 2 * n + 2 := by
  have hbytes := (callCount_append ((unitBytes c n).map .byte) [.frameEnd]).trans
    (congrArg (· + 1) (callCount_bytes (unitBytes c n)))
  rw [length_unitBytes] at hbytes
  rw [runEvents_eq]
  exact congrArg (· + 1) hbytes

theorem unitCount_runEvents (c : Half) (n : Nat) : unitCount (runEvents c n) = 2 * n := by
  rw [runEvents_eq, ← length_unitBytes c n, unitCount, wire]
  simp [wireFrom, dcAfter, wireFrom_bytes_append]

theorem length_runEvents (c : Half) (n : Nat) : (runEvents c n).length = 2 * n + 3 := by
  rw [runEvents_eq, ← length_unitBytes c n]
  simp

theorem frameCount_runEvents (c : Half) (n : Nat) : frameCount (runEvents c n) = 1 := by
  rw [runEvents_eq]
  simp [frameCount, List.countP_map, Function.comp_def]

/-- Settles O24: the events of the acts are the run, counted by its bytes, and RUN_CNT is counted down to 0. -/
theorem sendColorRunCompletes : Obligations.SendColorRunCompletes := by
  intro s c n
  obtain ⟨hdone, hfails⟩ := (sendColorRunActs_wire c n).exec (s := s) (i := .sendColorRun c n) rfl
  rw [sendColorRunActs_events] at hfails
  refine ⟨fun hs => ?_, hfails, length_runEvents c _, unitCount_runEvents c _, frameCount_runEvents c _⟩
  rw [hdone hs, State.afterWire, sendColorRunActs_events, levelAfter_runEvents, frameAfter_runEvents,
    sendColorRunActs_runCnt, callCount_runEvents]

end Sys2Proof.Machine
end

section
/-! PROOFS. REG_WRITE (R136): the events of its acts, what they leave behind, and how many there are of each kind. -/

namespace Sys2Proof.Machine

/-! ### The acts of an entry and their events -/

theorem sendDataListActs_wire (bs : List Byte) : WireActs (sendDataListActs bs) := by
  induction bs with
  | nil => exact .nil
  | cons b bs ih => exact (sendDataActs_wire b).append ih

theorem settleActs_wire (delay : Option Half) : WireActs (settleActs delay) := by
  cases delay with
  | none => exact .nil
  | some d => exact .wait .settle d .nil

theorem regWriteActs_wire (e : RomEntry) : WireActs (regWriteActs e) :=
  (sendCommandActs_wire _).append <| (sendDataListActs_wire _).append (settleActs_wire _)

theorem sendDataListActs_events (bs : List Byte) :
    (sendDataListActs bs).flatMap Act.events = (bs.map dataEvents).flatten := by
  induction bs with
  | nil => rfl
  | cons b bs ih =>
    rw [sendDataListActs, List.flatMap_append, ih]
    rfl

/-- The events of an entry: its command, its data bytes, its delay, in the association of its acts. -/
theorem regWriteEvents_eq (e : RomEntry) :
    regWriteEvents e =
      commandEvents e.cmd ++ ((e.data.map dataEvents).flatten ++ (settleActs e.delay).flatMap Act.events) := by
  rw [regWriteEvents, List.append_assoc]
  cases e.delay <;> rfl

theorem regWriteActs_events (e : RomEntry) : (regWriteActs e).flatMap Act.events = regWriteEvents e := by
  rw [regWriteEvents_eq, regWriteActs, List.flatMap_append, List.flatMap_append, sendDataListActs_events]
  rfl

/-- REG_WRITE does not touch RUN_CNT. -/
theorem regWriteActs_runCnt (e : RomEntry) (k : BitVec 32) : runCntAfter k (regWriteActs e) = k := by
  have hdata : ∀ bs, runCntAfter k (sendDataListActs bs) = k := by
    intro bs
    induction bs with
    | nil => rfl
    | cons b bs ih => exact ih
  change runCntAfter k (sendDataListActs e.data ++ settleActs e.delay) = k
  rw [runCntAfter_append, hdata]
  cases e.delay <;> rfl

/-! ### DC and the frame after an entry -/

theorem levelAfter_regWriteEvents (l : Bool) (e : RomEntry) :
    levelAfter .dc l (regWriteEvents e) = dcAfterEntry e := by
  have hdata : ∀ (bs : List Byte) (l : Bool), levelAfter .dc l (bs.map dataEvents).flatten = (l || !bs.isEmpty) := by
    intro bs
    induction bs with
    | nil => simp [levelAfter]
    | cons b bs ih =>
      intro l
      exact (ih true).trans (by simp)
  rw [regWriteEvents_eq, levelAfter_append, levelAfter_append, hdata]
  cases e.delay <;> rfl

theorem frameAfter_regWriteEvents (wasOpen : Bool) (e : RomEntry) :
    frameAfter wasOpen (regWriteEvents e) = false := by
  have hdata : ∀ bs : List Byte, frameAfter false (bs.map dataEvents).flatten = false := by
    intro bs
    induction bs with
    | nil => rfl
    | cons b bs ih => exact ih
  have hcmd : frameAfter wasOpen (commandEvents e.cmd) = false := rfl
  rw [regWriteEvents_eq, frameAfter_append, frameAfter_append, hcmd, hdata]
  cases e.delay <;> rfl

/-! ### Counting the events of an entry -/

/-- The four events of a frame of one byte, for either level of DC, contribute `n` each time, and a delay `w`. -/
theorem countP_regWriteEvents {p : Event → Bool} {n : Nat} {w : Bool}
    (hframe : ∀ l b, [Event.pin .dc l, .frameBegin, .byte b, .frameEnd].countP p = n)
    (hwait : ∀ d, p (.wait .settle d) = w) (e : RomEntry) :
    (regWriteEvents e).countP p = n * (1 + e.data.length) + if w && e.delay.isSome then 1 else 0 := by
  have hdata : ∀ bs : List Byte, (bs.map dataEvents).flatten.countP p = n * bs.length := by
    intro bs
    induction bs with
    | nil => rfl
    | cons b bs ih =>
      rw [List.map_cons, List.flatten_cons, List.countP_append, ih, dataEvents, hframe, List.length_cons]
      ring
  have hsettle : ((settleActs e.delay).flatMap Act.events).countP p = if w && e.delay.isSome then 1 else 0 := by
    cases e.delay <;> simp [settleActs, Act.events, hwait]
  rw [regWriteEvents_eq, List.countP_append, List.countP_append, commandEvents, hframe, hdata, hsettle]
  ring

theorem callCount_eq_countP (es : List Event) : callCount es = es.countP fun e => e.call.isSome := by
  simp [callCount, List.length_filterMap_eq_countP]

theorem callCount_regWriteEvents (e : RomEntry) : callCount (regWriteEvents e) = entryCalls e := by
  rw [callCount_eq_countP, countP_regWriteEvents (n := 3) (w := false) (fun _ _ => rfl) (fun _ => rfl)]
  rfl

theorem callCount_regWriteActs (e : RomEntry) :
    callCount ((regWriteActs e).flatMap Act.events) = entryCalls e := by
  rw [regWriteActs_events, callCount_regWriteEvents]

/-- Settles O28: the acts of REG_WRITE are of the framing layer, with R136's events. -/
theorem regWriteCompletes : Obligations.RegWriteCompletes := by
  intro s e
  obtain ⟨hdone, hfails⟩ := (regWriteActs_wire e).exec (s := s) (i := .regWrite e) rfl
  rw [regWriteActs_events] at hfails
  refine ⟨fun hs => ?_, hfails⟩
  rw [hdone hs, State.afterWire, regWriteActs_events, levelAfter_regWriteEvents, frameAfter_regWriteEvents,
    regWriteActs_runCnt, callCount_regWriteEvents]
  rfl

end Sys2Proof.Machine
end

section
/-! PROOFS. Runs whose first calls are answered OK: what happens before the first other answer (R6, R110). -/

namespace Sys2Proof.Machine

theorem State.effects_append (as bs : List Act) (s : State) :
    s.effects (as ++ bs) = (s.effects as).effects bs := List.foldl_append

theorem State.effects_pauses {as : List Act} {s : State} (hp : s.pauses = []) : (s.effects as).pauses = [] := by
  induction as generalizing s with
  | nil => exact hp
  | cons a as ih =>
    rw [State.effects_cons hp]
    exact ih ((State.effect_pauses a s).trans hp)

theorem Act.eq_tcall_of_callCount_pos {a : Act} (h : 0 < callCount a.events) : ∃ c, a = .tcall c := by
  cases a with
  | tcall c => exact ⟨c, rfl⟩
  | _ => exact absurd h (Nat.lt_irrefl 0)

theorem State.effects_eq_foldl {as : List Act} {s : State} (hp : s.pauses = []) :
    s.effects as = as.foldl (fun s a => s.effect a) s := by
  induction as generalizing s with
  | nil => rfl
  | cons a as ih => rw [State.effects_cons hp, List.foldl_cons, ih ((State.effect_pauses a s).trans hp)]

/-- An act whose call, if it makes one, is answered OK is done. -/
theorem State.act_of_answered {a : Act} {s : State} {later : List Answer}
    (h : s.transport.script = List.replicate (callCount a.events) .ok ++ later) :
    s.act a = .done (s.effect a) ∧ (s.effect a).transport.script = later := by
  refine ⟨?_, by simp [State.effect_transport, Transport.after, h]⟩
  by_cases hcall : callCount a.events = 0
  · exact (s.act_of_no_call (List.length_eq_zero_iff.mp hcall)).1
  · obtain ⟨n, hn⟩ := Nat.exists_eq_succ_of_ne_zero hcall
    exact State.act_of_answer_ok a (by simp [Transport.answer, h, hn, List.replicate_succ])

/-- Acts whose calls are all answered OK are done, whatever is answered after them. -/
theorem State.perform_append_of_answered {as : List Act} {s : State} {later : List Answer} (hp : s.pauses = [])
    (h : s.transport.script = List.replicate (callCount (as.flatMap Act.events)) .ok ++ later) (bs : List Act) :
    State.perform (as ++ bs) s = State.perform bs (s.effects as) := by
  induction as generalizing s with
  | nil => rfl
  | cons a as ih =>
    rw [List.flatMap_cons, callCount_append, ← List.replicate_append_replicate, List.append_assoc] at h
    obtain ⟨hact, hscript⟩ := State.act_of_answered h
    rw [List.cons_append, State.perform_cons_of_done hp hact, State.effects_cons hp]
    exact ih ((State.effect_pauses a s).trans hp) hscript

theorem State.act_of_answer_fail {s : State} (c : TCall) (h : s.transport.answer = .fail) :
    s.act (.tcall c) = .failed (s.failCall c) := by
  simp [State.act, State.tcall, h, State.failCall]

theorem State.effects_answers {as : List Act} {s : State} {later : List Answer} (hp : s.pauses = [])
    (h : s.transport.script = List.replicate (callCount (as.flatMap Act.events)) .ok ++ later) :
    (s.effects as).pauses = [] ∧ (s.effects as).transport.script = later :=
  ⟨State.effects_pauses hp, by simp [State.effects_transport hp, Transport.after, h]⟩

/-- Nothing after the acts one of whose calls fails is run. -/
theorem State.perform_append_of_fails {as : List Act} {s : State} {k : Nat} {later : List Answer}
    (hs : s.Answers k .fail later) (hk : k < callCount (as.flatMap Act.events)) (bs : List Act) :
    State.perform (as ++ bs) s = State.perform as s := by
  induction as generalizing s k with
  | nil => simp [callCount] at hk
  | cons a as ih =>
    obtain ⟨hp, hscript⟩ := hs
    rw [List.flatMap_cons, callCount_append] at hk
    by_cases hfirst : k < callCount a.events
    · obtain ⟨c, rfl⟩ := Act.eq_tcall_of_callCount_pos (Nat.zero_lt_of_lt hfirst)
      obtain rfl : k = 0 := by simpa [callCount, Act.events] using hfirst
      have hact := State.act_of_answer_fail c (s := s) (by simp [Transport.answer, hscript])
      rw [List.cons_append, State.perform_cons_of_failed hp hact, State.perform_cons_of_failed hp hact]
    · obtain ⟨k', rfl⟩ := Nat.exists_eq_add_of_le (Nat.le_of_not_lt hfirst)
      rw [← List.replicate_append_replicate, List.append_assoc] at hscript
      obtain ⟨hact, hscript'⟩ := State.act_of_answered hscript
      rw [List.cons_append, State.perform_cons_of_done hp hact, State.perform_cons_of_done hp hact]
      exact ih ⟨(State.effect_pauses a s).trans hp, hscript'⟩ (by omega)

theorem WireActs.effect_romIdx {as : List Act} (h : WireActs as) {a : Act} (ha : a ∈ as) (s : State) :
    (s.effect a).romIdx = s.romIdx := by
  induction h with
  | nil => cases ha
  | dc _ _ ih | call _ _ ih | wait _ _ _ ih | runLoad _ _ ih | runNext _ ih =>
    rcases List.mem_cons.mp ha with rfl | ha
    · rfl
    · exact ih ha

/-- However acts of the framing layer end, ROM_IDX is as before (R213). -/
theorem WireActs.perform_romIdx {as : List Act} (h : WireActs as) (s : State) :
    (State.perform as s).romIdx = s.romIdx :=
  State.perform_keeps (P := fun t => t.romIdx = s.romIdx) rfl (fun _ ha t ht => (h.effect_romIdx ha t).trans ht)
    (fun _ _ ht => ht) (fun _ _ _ _ _ ht => ht)

/-! ### The state after a stream of events -/

/-- The state after a run that emits `evs`, every call answered OK, and keeps RUN_CNT (R110, R111). -/
def State.afterEvents (s : State) (evs : List Event) : State :=
  { s.emitted evs with
    dcLvl := levelAfter .dc s.dcLvl evs
    frameOpen := frameAfter s.frameOpen evs
    transport := s.transport.after (callCount evs) }

theorem State.afterEvents_nil (s : State) : s.afterEvents [] = s := by
  rw [State.afterEvents, State.emitted, List.append_nil]
  rfl

theorem State.afterEvents_append (s : State) (es fs : List Event) :
    s.afterEvents (es ++ fs) = (s.afterEvents es).afterEvents fs := by
  have htransport : s.transport.after (callCount (es ++ fs)) =
      (s.transport.after (callCount es)).after (callCount fs) := by
    simp [Transport.after, callCount_append]
  rw [State.afterEvents, State.emitted, ← List.append_assoc, State.observed_append, levelAfter_append,
    frameAfter_append, htransport]
  rfl

/-- Acts of the framing layer that keep RUN_CNT leave behind what their events say, and nothing else. -/
theorem WireActs.effects_eq {as : List Act} (h : WireActs as) {s : State} (hp : s.pauses = [])
    (hrun : runCntAfter s.runCnt as = s.runCnt) : s.effects as = s.afterEvents (as.flatMap Act.events) := by
  have hemits := State.effects_emits hp h.emitReport_notMem
  rw [h.effects_frame hp, hemits.trace, hemits.ghost, hemits.dcLvl, hemits.frameOpen, State.effects_runCnt hp, hrun,
    State.effects_transport hp]
  rfl

end Sys2Proof.Machine
end

section
/-! PROOFS. HW_RESET_PULSE (R138). -/

namespace Sys2Proof.Machine

/-- Acts that make no call are done whatever the transport would answer. -/
theorem State.perform_of_no_call {as : List Act} {s : State} (hp : s.pauses = [])
    (h : callCount (as.flatMap Act.events) = 0) : State.perform as s = s.effects as := by
  have hrun := State.perform_append_of_answered (as := as) (later := s.transport.script) hp (by simp [h]) []
  rwa [List.append_nil, State.perform] at hrun

/-- The falling edge makes P0, the wait finds nothing to settle, the rising edge releases the panel (R56, R57). -/
theorem Ghost.observeAll_pulseEvents (codes : CmdCodes) (dc : Bool) (cfg : Config) (g : Ghost) :
    Ghost.observeAll codes dc (pulseEvents cfg) g = ⟨Panel.initial, g.faults⟩ := by
  simp [pulseEvents, Ghost.observeAll, Ghost.observe, Panel.reset, Panel.initial]

theorem hwResetPulseActs_effects {s : State} (hp : s.pauses = []) :
    s.effects (hwResetPulseActs s.cfg) = { s.emitted (pulseEvents s.cfg) with rstLvl := true } := by
  rw [State.effects_eq_foldl hp]
  simp [hwResetPulseActs, State.effect, State.pinWrite, State.setPinLvl, State.emit, State.emitted, State.observed,
    pulseEvents, Ghost.observeAll, dcAfter]

theorem exec_hwResetPulse (s : State) :
    exec .hwResetPulse s = s.micro (if s.cfg.hasRst then hwResetPulseActs s.cfg else []) := rfl

/-- Settles O32: the pulse makes no call, and its falling edge resets the panel. -/
theorem resetPulseCompletes : Obligations.ResetPulseCompletes := by
  intro s hp
  refine ⟨fun hrst => ⟨?_, Ghost.observeAll_pulseEvents _ _ s.cfg _⟩, fun hrst => ?_⟩
  · rw [exec_hwResetPulse, if_pos hrst, State.micro, State.perform_of_no_call hp rfl, hwResetPulseActs_effects hp]
    rfl
  · rw [exec_hwResetPulse, if_neg (by simp [hrst])]
    rfl

end Sys2Proof.Machine
end

section
/-! PROOFS. RUN_INIT (R137, R139): the whole ROM in order, and ROM_IDX with it. -/

namespace Sys2Proof.Machine

/-! ### An admissible ROM -/

theorem length_of_decodeRom {n : Nat} {bytes : List Byte} {rom : List RomEntry}
    (h : decodeRom n bytes = .ok rom) : rom.length = n := by
  induction n generalizing bytes rom with
  | zero => cases bytes <;> simp_all [decodeRom]
  | succ n ih =>
    rw [decodeRom] at h
    split at h
    · cases h
    · split at h
      · cases h
      · next hes =>
        cases h
        exact congrArg (· + 1) (ih hes)

theorem initRom_eq_some {cfg : Config} {rom : List RomEntry} (h : initRom cfg = some rom) :
    decodeRom cfg.romEntries cfg.romImage = .ok rom ∧ romContentOk cfg.codes cfg.swapRb rom = true := by
  unfold initRom at h
  split at h
  · cases h
  · next hdec =>
    split at h
    · next hok =>
      cases h
      exact ⟨hdec, hok⟩
    · cases h

theorem length_of_initRom {cfg : Config} {rom : List RomEntry} (h : initRom cfg = some rom) :
    rom.length = cfg.romEntries := length_of_decodeRom (initRom_eq_some h).1

/-- The content checks ask for entries, so an admissible ROM has some (R132). -/
theorem ne_nil_of_initRom {cfg : Config} {rom : List RomEntry} (h : initRom cfg = some rom) : rom ≠ [] := by
  rintro rfl
  have hok := (initRom_eq_some h).2
  simp [romContentOk, romHasSettled] at hok

/-! ### The events of a ROM -/

theorem romActs_append (es fs : List RomEntry) : romActs (es ++ fs) = romActs es ++ romActs fs := by
  induction es with
  | nil => rfl
  | cons e es ih => simp [romActs, ih]

/-- The acts of a ROM: those before entry `j`, its own, and those after. -/
theorem romActs_eq_at {rom : List RomEntry} {j : Nat} (hj : j < rom.length) :
    romActs rom = romActs (rom.take j) ++ (regWriteActs rom[j] ++ (.romNext :: romActs (rom.drop (j + 1)))) := by
  conv_lhs => rw [← List.take_append_drop j rom, List.drop_eq_getElem_cons hj, romActs_append]
  simp [romActs, romEntryActs]

theorem romEvents_cons (e : RomEntry) (es : List RomEntry) : romEvents (e :: es) = regWriteEvents e ++ romEvents es :=
  rfl

theorem romActs_events (rom : List RomEntry) : (romActs rom).flatMap Act.events = romEvents rom := by
  induction rom with
  | nil => rfl
  | cons e es ih =>
    simp [romActs, romEntryActs, regWriteActs_events, ih, romEvents, Act.events]

theorem romActs_emitReport_notMem (rom : List RomEntry) : Act.emitReport ∉ romActs rom := by
  induction rom with
  | nil => simp [romActs]
  | cons e es ih => simp [romActs, romEntryActs, ih, (regWriteActs_wire e).emitReport_notMem]

theorem levelAfter_romEvents (l : Bool) (rom : List RomEntry) :
    levelAfter .dc l (romEvents rom) = dcAfterRom l rom := by
  induction rom generalizing l with
  | nil => rfl
  | cons e es ih =>
    rw [romEvents_cons, levelAfter_append, levelAfter_regWriteEvents]
    refine (ih _).trans ?_
    cases h : es.getLast? <;> simp [dcAfterRom, List.getLast?_cons, h]

theorem frameAfter_romEvents (wasOpen : Bool) {rom : List RomEntry} (h : rom ≠ []) :
    frameAfter wasOpen (romEvents rom) = false := by
  induction rom generalizing wasOpen with
  | nil => exact absurd rfl h
  | cons e es ih =>
    rw [romEvents_cons, frameAfter_append, frameAfter_regWriteEvents]
    cases es with
    | nil => rfl
    | cons _ _ => exact ih _ (by simp)

theorem callCount_romEvents (rom : List RomEntry) : callCount (romEvents rom) = romCalls rom := by
  induction rom with
  | nil => rfl
  | cons e es ih =>
    rw [romEvents_cons, callCount_append, callCount_regWriteEvents]
    exact congrArg (entryCalls e + ·) ih

theorem callCount_romActs (rom : List RomEntry) :
    callCount ((romActs rom).flatMap Act.events) = romCalls rom := by
  rw [romActs_events, callCount_romEvents]

/-! ### The run -/

theorem regWriteActs_effects {s : State} (hp : s.pauses = []) (e : RomEntry) :
    s.effects (regWriteActs e) = s.afterEvents (regWriteEvents e) := by
  rw [(regWriteActs_wire e).effects_eq hp (regWriteActs_runCnt e _), regWriteActs_events]

/-- The loop of RUN_INIT: the writes in order, and ROM_IDX advanced by as many entries. -/
theorem romActs_effects {s : State} (hp : s.pauses = []) (hi : s.romIdx ≤ s.cfg.romEntries) (rom : List RomEntry) :
    s.effects (romActs rom) =
      { s.afterEvents (romEvents rom) with romIdx := min (s.romIdx + rom.length) s.cfg.romEntries } := by
  induction rom generalizing s with
  | nil =>
    have hidx : min (s.romIdx + 0) s.cfg.romEntries = s.romIdx := Nat.min_eq_left hi
    have hnil : s.afterEvents (romEvents []) = s := s.afterEvents_nil
    rw [hnil, List.length_nil, hidx]
    rfl
  | cons e es ih =>
    have hentry : s.effects (romEntryActs e) =
        { s.afterEvents (regWriteEvents e) with romIdx := min (s.romIdx + 1) s.cfg.romEntries } := by
      rw [romEntryActs, State.effects_append, regWriteActs_effects hp, State.effects_cons (s := s.afterEvents _) hp]
      rfl
    have hidx : min (min (s.romIdx + 1) s.cfg.romEntries + es.length) s.cfg.romEntries =
        min (s.romIdx + (e :: es).length) s.cfg.romEntries := by
      rw [List.length_cons]
      omega
    rw [romActs, State.effects_append, hentry,
      ih (s := { s.afterEvents _ with romIdx := _ }) hp (Nat.min_le_right _ _), romEvents_cons,
      State.afterEvents_append, ← hidx]
    rfl

theorem exec_runInit {s : State} {rom : List RomEntry} (h : initRom s.cfg = some rom) :
    exec .runInit s = s.micro (runInitActs rom) := by
  change execRunInit s = _
  simp [execRunInit, h]

theorem exec_runInit_of_undisturbed {s : State} {rom : List RomEntry} (hs : s.Undisturbed)
    (h : initRom s.cfg = some rom) :
    exec .runInit s = .next { s.emitted (romEvents rom) with
      dcLvl := dcAfterRom s.dcLvl rom, frameOpen := false, romIdx := s.cfg.romEntries,
      transport := s.transport.after (romCalls rom) } := by
  have hp := hs.2.2
  have hidx : min ((s.effect .romStart).romIdx + rom.length) (s.effect .romStart).cfg.romEntries =
      s.cfg.romEntries := by
    simp [State.effect, length_of_initRom h]
  rw [exec_runInit h, State.micro, State.perform_eq_effects hs, runInitActs, State.effects_cons hp,
    romActs_effects (s := s.effect .romStart) hp (Nat.zero_le _), hidx, State.afterEvents, levelAfter_romEvents,
    frameAfter_romEvents _ (ne_nil_of_initRom h), callCount_romEvents]
  rfl

/-- A call that fails inside entry `j` leaves ROM_IDX there: the entries before it have advanced it to `j`, and the
writes of entry `j` leave it (R137, R213). -/
theorem romIdx_of_runInit_fails {s : State} {rom : List RomEntry} {j m : Nat} {e : RomEntry} {later : List Answer}
    (hlen : rom.length = s.cfg.romEntries) (he : rom[j]? = some e) (hm : m < entryCalls e)
    (hs : s.Answers (romCalls (rom.take j) + m) .fail later) :
    (State.perform (runInitActs rom) s).romIdx = j := by
  obtain ⟨hp, hscript⟩ := hs
  obtain ⟨hj, rfl⟩ := List.getElem?_eq_some_iff.mp he
  have hscript' : s.transport.script =
      List.replicate (callCount ((romActs (rom.take j)).flatMap Act.events)) .ok ++
        (List.replicate m .ok ++ .fail :: later) := by
    rw [callCount_romActs, hscript, ← List.replicate_append_replicate, List.append_assoc]
  have hrun : State.perform (runInitActs rom) s =
      State.perform (regWriteActs rom[j]) ((s.effect .romStart).effects (romActs (rom.take j))) := by
    rw [runInitActs, State.perform_cons_of_done (s' := s.effect .romStart) hp rfl, romActs_eq_at hj,
      State.perform_append_of_answered (s := s.effect .romStart) hp hscript',
      State.perform_append_of_fails (State.effects_answers (s := s.effect .romStart) hp hscript')
        (callCount_regWriteActs _ ▸ hm)]
  rw [hrun, (regWriteActs_wire _).perform_romIdx, romActs_effects (s := s.effect .romStart) hp (Nat.zero_le _),
    List.length_take]
  change min (0 + min j rom.length) s.cfg.romEntries = j
  omega

/-- Settles O30: undisturbed by the loop's effects; a failing call aborts the run, in the entry it belongs to. -/
theorem runInitCompletes : Obligations.RunInitCompletes := by
  intro s rom h
  have hevents : (runInitActs rom).flatMap Act.events = romEvents rom := romActs_events rom
  have hfails := State.failsAlong_of_micro (exec_runInit h)
    (by simpa [runInitActs] using romActs_emitReport_notMem rom)
  rw [hevents] at hfails
  exact ⟨fun hs => exec_runInit_of_undisturbed hs h, hfails, fun j m e later he hm hs =>
    ⟨_, exec_runInit h, romIdx_of_runInit_fails (length_of_initRom h) he hm hs⟩⟩

/-! ### How many events -/

/-- `countP_regWriteEvents`, summed over the entries. -/
theorem countP_romEvents {p : Event → Bool} {n : Nat} {w : Bool}
    (hframe : ∀ l b, [Event.pin .dc l, .frameBegin, .byte b, .frameEnd].countP p = n)
    (hwait : ∀ d, p (.wait .settle d) = w) (rom : List RomEntry) :
    (romEvents rom).countP p =
      (rom.map fun e => n * (1 + e.data.length) + if w && e.delay.isSome then 1 else 0).sum := by
  rw [romEvents, List.countP_flatten, List.map_map]
  exact congrArg List.sum (List.map_congr_left fun e _ => countP_regWriteEvents hframe hwait e)

/-- The wire carries one unit for each byte, whatever the level of DC (R11). -/
theorem length_wireFrom (dc : Bool) (es : List Event) :
    (wireFrom dc es).length = es.countP fun e => match e with | .byte _ => true | _ => false := by
  induction es generalizing dc with
  | nil => rfl
  | cons e es ih => cases e <;> simp [wireFrom, ih]

theorem length_romEvents (rom : List RomEntry) : (romEvents rom).length =
    (rom.map fun e => 4 * (1 + e.data.length) + if e.delay.isSome then 1 else 0).sum := by
  rw [← List.countP_true, countP_romEvents (n := 4) (w := true) (fun _ _ => rfl) (fun _ => rfl)]
  simp

theorem unitCount_romEvents (rom : List RomEntry) :
    unitCount (romEvents rom) = (rom.map fun e => 1 + e.data.length).sum := by
  rw [unitCount, wire, length_wireFrom, countP_romEvents (n := 1) (w := false) (fun _ _ => rfl) (fun _ => rfl)]
  simp

theorem frameCount_romEvents (rom : List RomEntry) :
    frameCount (romEvents rom) = (rom.map fun e => 1 + e.data.length).sum := by
  rw [frameCount, countP_romEvents (n := 1) (w := false) (fun _ _ => rfl) (fun _ => rfl)]
  simp

theorem waitCount_romEvents (rom : List RomEntry) :
    waitCount (romEvents rom) = (rom.map fun e => if e.delay.isSome then 1 else 0).sum := by
  rw [waitCount, countP_romEvents (n := 0) (w := true) (fun _ _ => rfl) (fun _ => rfl)]
  simp

/-- What is summed over the reference composition: its seven entries, and the tuning table among them (R131). -/
theorem sum_map_referenceRom (f : RomEntry → Nat) (codes : CmdCodes) (swapRb : Bool) (t : SettleTimes)
    (tuning : List RomEntry) : ((referenceRom codes swapRb t tuning).map f).sum =
      f ⟨codes.swreset, [], some t.swreset⟩ + f ⟨codes.slpout, [], some t.slpout⟩ +
      f ⟨codes.colmod, [colmodData], none⟩ + f ⟨codes.madctl, [madctlData swapRb], none⟩ +
      f ⟨codes.invon, [], some t.invon⟩ + f ⟨codes.noron, [], some t.noron⟩ + f ⟨codes.dispon, [], some t.dispon⟩ +
      (tuning.map f).sum := by
  simp only [referenceRom, List.map_append, List.sum_append, List.map_cons, List.sum_cons, List.map_nil, List.sum_nil]
  omega

/-- Settles O31: the events are those of the ROM, counted entry by entry. -/
theorem runInitCounts : Obligations.RunInitCounts := by
  intro s rom hs h
  have hcosts : s.Costs .runInit _ _ _ _ :=
    ⟨_, romEvents rom, exec_runInit_of_undisturbed hs h, rfl, length_romEvents rom, unitCount_romEvents rom,
      frameCount_romEvents rom, waitCount_romEvents rom⟩
  refine ⟨hcosts, fun codes swapRb t tuning href => ?_⟩
  -- The shares of the seven entries are closed sums, which evaluate to the numbers stated.
  simp only [href, sum_map_referenceRom] at hcosts
  exact hcosts

end Sys2Proof.Machine
end

section
/-! PROOFS. SET_ADDRESS_WINDOW (R161): its acts and events, and what a LIVE panel makes of them (R58 to R60). -/

namespace Sys2Proof.Machine

/-! ### Acts and events -/

theorem setAddressWindowActs_wire (codes : CmdCodes) (x₁ y₁ x₂ y₂ : Half) :
    WireActs (setAddressWindowActs codes x₁ y₁ x₂ y₂) :=
  (sendCommandActs_wire _).append <| (sendData16Acts_wire _).append <| (sendData16Acts_wire _).append <|
    (sendCommandActs_wire _).append <| (sendData16Acts_wire _).append <| (sendData16Acts_wire _).append <|
    sendCommandActs_wire _

theorem setAddressWindowActs_events (codes : CmdCodes) (x₁ y₁ x₂ y₂ : Half) :
    (setAddressWindowActs codes x₁ y₁ x₂ y₂).flatMap Act.events = windowEvents codes x₁ y₁ x₂ y₂ := rfl

theorem callCount_windowEvents (codes : CmdCodes) (x₁ y₁ x₂ y₂ : Half) :
    callCount (windowEvents codes x₁ y₁ x₂ y₂) = 25 := rfl

/-- The window's acts leave RUN_CNT alone: the state after them is the state after their events. -/
theorem State.afterWire_setAddressWindowActs (s : State) (codes : CmdCodes) (x₁ y₁ x₂ y₂ : Half) :
    s.afterWire (setAddressWindowActs codes x₁ y₁ x₂ y₂) = s.afterEvents (windowEvents codes x₁ y₁ x₂ y₂) := rfl

theorem exec_setAddressWindow (s : State) (x₁ y₁ x₂ y₂ : Half) :
    exec (.setAddressWindow x₁ y₁ x₂ y₂) s = s.micro (setAddressWindowActs s.cfg.codes x₁ y₁ x₂ y₂) := rfl

/-! ### The panel: a window command with its payload, then RAMWR -/

/-- Under distinct codes the panel has nothing to settle after the commands of the window (R58). -/
theorem CmdCodes.settleBound_of_distinct {codes : CmdCodes} (hd : codes.Distinct) {c : Byte}
    (hc : c ∈ [codes.caset, codes.raset, codes.ramwr, codes.madctl, codes.colmod]) :
    c ≠ codes.swreset ∧ settleBound codes c = 0 := by
  have hne : c ∉ [codes.swreset, codes.slpout, codes.noron, codes.invon, codes.dispon] :=
    fun h => List.disjoint_of_nodup_append hd h hc
  simp only [List.mem_cons, List.not_mem_nil, or_false, not_or] at hne
  obtain ⟨hswreset, hslpout, hnoron, hinvon, hdispon⟩ := hne
  exact ⟨hswreset, by simp [settleBound, hswreset, hslpout, hinvon, hnoron, hdispon]⟩

theorem Ghost.dropOddByte_of_none {g : Ghost} (h : g.panel.pend = none) : g.dropOddByte = g := by
  simp [Ghost.dropOddByte, h]

/-- A command that resets nothing and opens no stream, to any LIVE panel (R57, R58). -/
theorem Ghost.byte_command_of_live {codes : CmdCodes} {c : Byte} {g : Ghost} (hlive : g.panel.status = .live)
    (hrst : g.panel.rstHeld = false) (hramwr : c ≠ codes.ramwr) (hsw : c ≠ codes.swreset) :
    g.byte codes false c = { g.checkSettle.dropOddByte with
      panel := { g.panel with pend := none, cmd := some c, args := [], settle := settleBound codes c } } := by
  rw [Ghost.byte_of_live hlive hrst]
  simp [Ghost.command, Ghost.dropOddByte_panel, Ghost.checkSettle_panel, Panel.takeCommand, hramwr, hsw,
    Ghost.setSettle]

theorem Ghost.receive_of_settled {g : Ghost} (h : g.panel.settle = 0) (c b : Byte) :
    g.receive c b = { g with panel := g.panel.recordParam c b } := by
  rw [Ghost.receive, Ghost.checkSettle_of_settled h]

/-- The trace of a window command with its two operands (R161). -/
def windowCommandEvents (c : Byte) (w₁ w₂ : Half) : List Event :=
  commandEvents c ++ data16Events w₁ ++ data16Events w₂

theorem windowEvents_eq (codes : CmdCodes) (x₁ y₁ x₂ y₂ : Half) :
    windowEvents codes x₁ y₁ x₂ y₂ = windowCommandEvents codes.caset x₁ x₂ ++
      (windowCommandEvents codes.raset y₁ y₂ ++ commandEvents codes.ramwr) := rfl

/-- A settled panel records the payload, which sets the window and adds no fault. -/
theorem IsWindowCommand.observeAll_operands {codes : CmdCodes} {setWin : Half × Half → Panel → Panel} {c : Byte}
    {g : Ghost} (hw : IsWindowCommand codes c setWin) (h : g.panel.Receives c) (hargs : g.panel.args = [])
    (hsettle : g.panel.settle = 0) (dc : Bool) (w₁ w₂ : Half) :
    ∃ args regs, Ghost.observeAll codes dc (data16Events w₁ ++ data16Events w₂) g =
      { g with panel := setWin (w₁, w₂) { g.panel with args := args, regs := regs } } := by
  have hfour := hw.observe_four h hargs (hiByte w₁) (loByte w₁) (hiByte w₂) (loByte w₂)
  simp only [Ghost.receive_of_settled, Panel.recordParam_settle, hsettle] at hfour
  change _ = Ghost.mk (setWin (joinBytes (hiByte w₁) (loByte w₁), joinBytes (hiByte w₂) (loByte w₂)) _) _ at hfour
  rw [joinBytes_hiByte_loByte, joinBytes_hiByte_loByte] at hfour
  exact ⟨_, _, hfour⟩

/-- The command makes the settle check and drops an odd byte; its operands set the window. -/
theorem IsWindowCommand.observeAll {codes : CmdCodes} {setWin : Half × Half → Panel → Panel} {c : Byte} {g : Ghost}
    (hw : IsWindowCommand codes c setWin) (hramwr : c ≠ codes.ramwr)
    (hc : c ≠ codes.swreset ∧ settleBound codes c = 0) (hlive : g.panel.status = .live)
    (hrst : g.panel.rstHeld = false) (dc : Bool) (w₁ w₂ : Half) :
    ∃ args regs, Ghost.observeAll codes dc (windowCommandEvents c w₁ w₂) g = { g.checkSettle.dropOddByte with
      panel := setWin (w₁, w₂)
        { g.panel with pend := none, cmd := some c, args := args, regs := regs, settle := 0 } } := by
  have hcommand := Ghost.byte_command_of_live hlive hrst hramwr hc.1
  rw [hc.2] at hcommand
  obtain ⟨args, regs, hoperands⟩ := hw.observeAll_operands (g := g.byte codes false c)
    (by rw [hcommand]; exact ⟨hlive, hrst, rfl⟩) (by rw [hcommand]) (by rw [hcommand]) false w₁ w₂
  refine ⟨args, regs, Eq.trans (b := Ghost.observeAll codes false (data16Events w₁ ++ data16Events w₂)
    (g.byte codes false c)) rfl ?_⟩
  rw [hoperands, hcommand]

/-- RAMWR on a panel whose windows have both just been written (R60). -/
theorem Ghost.byte_ramwr_of_fresh {codes : CmdCodes} (hd : codes.Distinct) {g : Ghost} {col row : Half × Half}
    (hlive : g.panel.status = .live) (hrst : g.panel.rstHeld = false) (hpend : g.panel.pend = none)
    (hsettle : g.panel.settle = 0) (hcol : g.panel.colWin = some col) (hrow : g.panel.rowWin = some row)
    (hcolFresh : g.panel.colFresh = true) (hrowFresh : g.panel.rowFresh = true) :
    g.byte codes false codes.ramwr = {
      panel := { g.panel with
        cmd := some codes.ramwr, args := [], colFresh := false, rowFresh := false,
        cur := if windowValid col row then .cell col.1.toNat row.1.toNat else .unset }
      faults := if windowValid col row then g.faults else (g.addFault .windowInvalid).faults } := by
  obtain ⟨hsw, hbound⟩ := CmdCodes.settleBound_of_distinct hd (c := codes.ramwr) (by simp)
  have hbefore : (g.beforeRamwr codes).useWindow = { g with
      panel := { g.panel with cmd := some codes.ramwr, args := [], colFresh := false, rowFresh := false } } := by
    simp [Ghost.beforeRamwr, Ghost.checkSettle_of_settled hsettle, Ghost.dropOddByte_of_none hpend, Ghost.useWindow,
      hcolFresh, hrowFresh, ← hpend]
  rw [Ghost.byte_ramwr hsw hlive hrst, hbound, Ghost.ramwrStart,
    Ghost.openStream_of_windows (by rw [hbefore]; exact hcol) (by rw [hbefore]; exact hrow), hbefore]
  split <;> simp [Ghost.setSettle, Ghost.addFault, ← hsettle]

/-- What the trace of SET_ADDRESS_WINDOW leaves of any LIVE panel: the two windows, and the cursor at the first cell of
a valid window. The checks of the first byte and of the window are all that can add a fault. -/
theorem Ghost.observeAll_windowEvents {codes : CmdCodes} (hd : codes.Distinct) {g : Ghost}
    (hlive : g.panel.status = .live) (hrst : g.panel.rstHeld = false) (dc : Bool) (x₁ y₁ x₂ y₂ : Half) :
    ∃ regs, Ghost.observeAll codes dc (windowEvents codes x₁ y₁ x₂ y₂) g = {
      panel := { g.panel with
        pend := none, cmd := some codes.ramwr, args := [], regs := regs, settle := 0,
        colWin := some (x₁, x₂), rowWin := some (y₁, y₂), colFresh := false, rowFresh := false,
        cur := if windowValid (x₁, x₂) (y₁, y₂) then .cell x₁.toNat y₁.toNat else .unset }
      faults := if windowValid (x₁, x₂) (y₁, y₂) then g.checkSettle.dropOddByte.faults
        else (g.checkSettle.dropOddByte.addFault .windowInvalid).faults } := by
  obtain ⟨⟨hcaset, hraset, -⟩, -⟩ := CmdCodes.ne_of_distinct hd
  rw [windowEvents_eq, Ghost.observeAll_append, Ghost.observeAll_append]
  obtain ⟨args, regs, hcols⟩ := (isWindowCommand_caset hd).observeAll hcaset
    (CmdCodes.settleBound_of_distinct hd (by simp)) hlive hrst dc x₁ x₂
  generalize Ghost.observeAll codes dc (windowCommandEvents codes.caset x₁ x₂) g = g₁ at hcols ⊢
  have hlive₁ : g₁.panel.status = .live := by rw [hcols]; exact hlive
  have hrst₁ : g₁.panel.rstHeld = false := by rw [hcols]; exact hrst
  obtain ⟨args', regs', hrows⟩ := (isWindowCommand_raset hd).observeAll hraset
    (CmdCodes.settleBound_of_distinct hd (by simp)) hlive₁ hrst₁ true y₁ y₂
  rw [Ghost.checkSettle_of_settled (by rw [hcols]; rfl), Ghost.dropOddByte_of_none (by rw [hcols]; rfl), hcols] at hrows
  refine ⟨regs', ?_⟩
  change Ghost.byte codes false codes.ramwr (Ghost.observeAll codes true (windowCommandEvents codes.raset y₁ y₂) g₁) = _
  rw [hcols, hrows, Ghost.byte_ramwr_of_fresh (col := (x₁, x₂)) (row := (y₁, y₂)) hd]
  exacts [rfl, hlive, hrst, rfl, rfl, rfl, rfl, rfl, rfl]

/-- Settles O35: the acts are of the framing layer with the window's events, and the panel effect is RAMWR's after the
two window commands. -/
theorem setAddressWindowCompletes : Obligations.SetAddressWindowCompletes := by
  intro s x₁ y₁ x₂ y₂
  obtain ⟨hdone, hfails⟩ :=
    (setAddressWindowActs_wire s.cfg.codes x₁ y₁ x₂ y₂).exec (exec_setAddressWindow s x₁ y₁ x₂ y₂)
  refine ⟨hdone, hfails, rfl, rfl, rfl, fun hd hlive hrst => ?_⟩
  obtain ⟨regs, hpanel⟩ := Ghost.observeAll_windowEvents hd hlive hrst s.dcLvl x₁ y₁ x₂ y₂
  rw [State.observed, hpanel]
  exact ⟨rfl, rfl, by simp only [windowValid_iff]⟩

end Sys2Proof.Machine
end

section
/-! PROOFS. PIXEL and FILL (R160, R164, R165): a no-op, or the window, one conversion and one colour run. -/

namespace Sys2Proof.Machine

/-! ### Host operations -/

theorem State.seq_of_accepts {s : State} (h : s.accepts = true) : s.seq = .idle := by
  have hfree := ((State.accepts_iff s).mp h).2
  cases hs : s.seq with
  | idle => rfl
  | busy => simp [State.inProgress_of_busy hs] at hfree

theorem State.operate_of_accepts {s : State} (h : s.accepts = true) (l : Latches) (as : List Act) :
    s.operate l as = .next (State.perform as (s.accept l)) := by
  simp [State.operate, h]

/-- An operation's calls fail along its trace. -/
theorem State.failsAlong_of_operate {s : State} {i : Instr} {l : Latches} {as : List Act} (ha : s.accepts = true)
    (hi : exec i s = s.operate l as) (hrep : Act.emitReport ∉ as) : s.FailsAlong i (as.flatMap Act.events) := by
  intro k c later hs hc
  obtain ⟨htrace, hscript, hready, herr, hrun, hopen, hdc, hghost⟩ :=
    State.perform_aborts (s := s.accept l) hs hrep hc
  exact ⟨_, hi.trans (State.operate_of_accepts ha l as), htrace, hscript, hready, herr, hrun, hopen, hdc, hghost⟩

/-- An operation that only completes. -/
theorem State.operate_complete {s : State} (ha : s.accepts = true) (hp : s.pauses = []) (l : Latches)
    (status : BitVec 4) :
    s.operate l [.complete status] = .next { s with latches := l, opDone := true, opStatus := status } := by
  have hrun : State.perform [.complete status] (s.accept l) = (s.accept l).finish status := by
    rw [State.perform_of_no_call (s := s.accept l) hp rfl, State.effects_eq_foldl (s := s.accept l) hp]
    rfl
  rw [State.operate_of_accepts ha, hrun]
  simp [State.finish, State.accept, State.seq_of_accepts ha]

/-! ### The writing part of PIXEL and FILL -/

theorem State.Undisturbed.afterEvents {s : State} (h : s.Undisturbed) (evs : List Event) :
    (s.afterEvents evs).Undisturbed := by
  obtain ⟨hscript, hrest, hp⟩ := h
  exact ⟨fun a ha => hscript a (List.mem_of_mem_drop ha), hrest, hp⟩

theorem paintActs_events (cfg : Config) (x₁ y₁ x₂ y₂ : Half) (n : BitVec 32) (r g b : Byte) :
    (paintActs cfg x₁ y₁ x₂ y₂ n r g b).flatMap Act.events =
      windowEvents cfg.codes x₁ y₁ x₂ y₂ ++ runEvents (toNative cfg.swapRb r g b) n.toNat := by
  simp [paintActs, setAddressWindowActs_events, sendColorRunActs_events, Act.events]

theorem paintActs_emitReport_notMem {cfg : Config} {x₁ y₁ x₂ y₂ : Half} {n : BitVec 32} {r g b : Byte} :
    Act.emitReport ∉ paintActs cfg x₁ y₁ x₂ y₂ n r g b := by
  simp [paintActs, (setAddressWindowActs_wire _ _ _ _ _).emitReport_notMem,
    (sendColorRunActs_wire _ _).emitReport_notMem]

/-- The converter's output goes to the latch (R184). -/
theorem State.perform_convert_latch {s : State} (hp : s.pauses = []) (r g b : Byte) :
    State.perform [.convert r g b, .latchNative] s =
      { s with cvNative := toNative s.cfg.swapRb r g b, nativeLatch := toNative s.cfg.swapRb r g b } := by
  rw [State.perform_of_no_call hp rfl, State.effects_eq_foldl hp]
  rfl

/-- The colour run's acts leave behind what its events say, and RUN_CNT at 0 (R116). -/
theorem State.afterWire_sendColorRunActs (s : State) (c : Half) (n : BitVec 32) :
    s.afterWire (sendColorRunActs c n) = { s.afterEvents (runEvents c n.toNat) with runCnt := 0 } := by
  rw [State.afterWire, sendColorRunActs_events, sendColorRunActs_runCnt]
  rfl

theorem State.perform_paintActs {s : State} (hs : s.Undisturbed) (x₁ y₁ x₂ y₂ : Half) (n : BitVec 32) (r g b : Byte) :
    State.perform (paintActs s.cfg x₁ y₁ x₂ y₂ n r g b) s =
      { s.afterEvents (windowEvents s.cfg.codes x₁ y₁ x₂ y₂ ++ runEvents (toNative s.cfg.swapRb r g b) n.toNat) with
        cvNative := toNative s.cfg.swapRb r g b, nativeLatch := toNative s.cfg.swapRb r g b,
        runCnt := 0 }.finish statusOk := by
  -- The latch and the run leave no pause and no bad answer either: `hs₁` serves for the states after them too.
  have hs₁ := hs.afterEvents (windowEvents s.cfg.codes x₁ y₁ x₂ y₂)
  rw [paintActs, State.perform_append hs, (setAddressWindowActs_wire _ _ _ _ _).perform hs,
    State.afterWire_setAddressWindowActs, State.perform_append hs₁, State.perform_convert_latch hs₁.2.2,
    State.perform_append (by exact hs₁), (sendColorRunActs_wire _ n).perform (by exact hs₁),
    State.afterWire_sendColorRunActs, State.perform_of_no_call (by exact hs₁.2.2) rfl,
    State.effects_eq_foldl (by exact hs₁.2.2), State.afterEvents_append]
  rfl

/-- A host operation that paints: the window's trace and the run's, one frame for the run, and completion with OK. -/
theorem State.operate_paintActs {s : State} (ha : s.accepts = true) (hs : s.Undisturbed) (l : Latches)
    (x₁ y₁ x₂ y₂ : Half) (n : BitVec 32) (r g b : Byte) :
    s.operate l (paintActs s.cfg x₁ y₁ x₂ y₂ n r g b) = .next {
      s.emitted (windowEvents s.cfg.codes x₁ y₁ x₂ y₂ ++ runEvents (toNative s.cfg.swapRb r g b) n.toNat) with
      latches := l, cvNative := toNative s.cfg.swapRb r g b, nativeLatch := toNative s.cfg.swapRb r g b,
      dcLvl := true, frameOpen := false, runCnt := 0, opDone := true, opStatus := statusOk,
      transport := s.transport.after (25 + (2 * n.toNat + 2)) } := by
  have hrun := State.perform_paintActs (s := s.accept l) hs x₁ y₁ x₂ y₂ n r g b
  rw [State.afterEvents, levelAfter_append, levelAfter_runEvents, frameAfter_append, frameAfter_runEvents,
    callCount_append, callCount_windowEvents, callCount_runEvents] at hrun
  rw [State.operate_of_accepts ha]
  refine (congrArg Host.Outcome.next hrun).trans ?_
  rw [State.finish, ← State.seq_of_accepts ha]
  rfl

/-! ### Which acts PIXEL and FILL take -/

/-- R160, the bounds signed (R82). -/
theorem inPanel_iff (x y : Half) :
    inPanel x y = true ↔ 0 ≤ x.toInt ∧ x.toInt ≤ 239 ∧ 0 ≤ y.toInt ∧ y.toInt ≤ 239 := by
  rw [inPanel, decide_eq_true_iff, panelSide]
  omega

theorem pixelActs_of_not_written {s : State} {x y : Half} (h : s.ready = false ∨ inPanel x y = false) (r g b : Byte) :
    pixelActs s x y r g b = [.complete statusOk] := by
  unfold pixelActs
  rcases h with h | h <;> simp [h]

theorem pixelActs_of_written {s : State} {x y : Half} (hr : s.ready = true) (hin : inPanel x y = true) (r g b : Byte) :
    pixelActs s x y r g b = paintActs s.cfg x y x y 1 r g b := by
  simp [pixelActs, hr, hin]

theorem fillActs_of_not_ready {s : State} (hr : s.ready = false) (r g b : Byte) :
    fillActs s r g b = [.complete statusOk] := by
  simp [fillActs, hr]

theorem fillActs_of_ready {s : State} (hr : s.ready = true) (r g b : Byte) :
    fillActs s r g b = paintActs s.cfg 0 0 239 239 fillCount r g b := by
  simp [fillActs, hr]

theorem exec_pixel (s : State) (x y : Half) (r g b : Byte) :
    exec (.pixel x y r g b) s = s.operate (pixelLatches x y r g b) (pixelActs s x y r g b) := rfl

theorem exec_fill (s : State) (r g b : Byte) :
    exec (.fill r g b) s = s.operate (colorLatches 4 r g b) (fillActs s r g b) := rfl

/-- Settles O36: outside the two conditions PIXEL only completes; inside it paints the one cell. -/
theorem pixelWritesItsUnit : Obligations.PixelWritesItsUnit := by
  intro s x y r g b ha
  refine ⟨fun hp hout => ?_, fun hr hin => ?_⟩
  · have hnot : s.ready = false ∨ inPanel x y = false := hout.imp_right fun hout => Bool.eq_false_iff.mpr fun hin => by
      have hbounds := (inPanel_iff x y).mp hin
      omega
    exact ⟨_, by rw [exec_pixel, pixelActs_of_not_written hnot, State.operate_complete ha hp]; rfl⟩
  · have hexec := exec_pixel s x y r g b
    rw [pixelActs_of_written hr ((inPanel_iff x y).mpr hin)] at hexec
    have hfails := State.failsAlong_of_operate ha hexec paintActs_emitReport_notMem
    rw [paintActs_events] at hfails
    exact ⟨fun hs => hexec.trans (State.operate_paintActs ha hs ..), hfails⟩

theorem toNat_fillCount : fillCount.toNat = 57600 := rfl

/-- Settles O37: not ready FILL only completes; ready it paints the whole panel. -/
theorem fillWritesOneRun : Obligations.FillWritesOneRun := by
  intro s r g b ha
  refine ⟨fun hp hr => ?_, fun hr => ?_⟩
  · exact ⟨_, by rw [exec_fill, fillActs_of_not_ready hr, State.operate_complete ha hp]; rfl⟩
  · have hexec := exec_fill s r g b
    rw [fillActs_of_ready hr] at hexec
    have hfails := State.failsAlong_of_operate ha hexec paintActs_emitReport_notMem
    rw [paintActs_events, toNat_fillCount] at hfails
    refine ⟨fun hs => ⟨colorLatches 4 r g b, rfl, rfl, rfl, rfl, ?_⟩, hfails⟩
    rw [hexec, State.operate_paintActs ha hs, toNat_fillCount]
    rfl

end Sys2Proof.Machine
end

section
/-! PROOFS. The pixel-count law (R61 to R63, R166): the scan of a window in row-major order, and what each unit of a
colour run does to the panel. -/

namespace Sys2Proof.Machine

/-! ### Row-major order -/

/-- How many cells the window (x1, y1)-(x2, y2) has. -/
abbrev windowSize (x₁ y₁ x₂ y₂ : Nat) : Nat := (x₂ - x₁ + 1) * (y₂ - y₁ + 1)

/-- The scan indices of a row start after those of every earlier row. -/
theorem scanIndex_lt_of_row_lt {x₁ y₁ x₂ y₂ x y x' y' : Nat} (h : inWindow x₁ y₁ x₂ y₂ x y) (hy : y < y') :
    scanIndex x₁ y₁ (x₂ - x₁ + 1) x y < scanIndex x₁ y₁ (x₂ - x₁ + 1) x' y' := by
  obtain ⟨hx₁, hx₂, hy₁, -⟩ := h
  have hrows : (y - y₁ + 1) * (x₂ - x₁ + 1) ≤ (y' - y₁) * (x₂ - x₁ + 1) := Nat.mul_le_mul_right _ (by omega)
  rw [Nat.succ_mul] at hrows
  unfold scanIndex
  omega

theorem scanIndex_lt_windowSize {x₁ y₁ x₂ y₂ x y : Nat} (h : inWindow x₁ y₁ x₂ y₂ x y) :
    scanIndex x₁ y₁ (x₂ - x₁ + 1) x y < windowSize x₁ y₁ x₂ y₂ := by
  have ⟨_, _, hy₁, hy₂⟩ := h
  have hend := scanIndex_lt_of_row_lt (x' := x₁) h (Nat.lt_succ_of_le hy₂)
  have hrows : y₂ + 1 - y₁ = y₂ - y₁ + 1 := Nat.sub_add_comm (hy₁.trans hy₂)
  rwa [scanIndex, scanIndex, Nat.sub_self, Nat.add_zero, Nat.mul_comm (y₂ + 1 - y₁), hrows] at hend

/-- Two cells of the window have the same scan index only when they are the same. -/
theorem scanIndex_inj {x₁ y₁ x₂ y₂ x y x' y' : Nat} (h : inWindow x₁ y₁ x₂ y₂ x y) (h' : inWindow x₁ y₁ x₂ y₂ x' y')
    (heq : scanIndex x₁ y₁ (x₂ - x₁ + 1) x y = scanIndex x₁ y₁ (x₂ - x₁ + 1) x' y') : x = x' ∧ y = y' := by
  have hy : y = y' := by
    rcases Nat.lt_trichotomy y y' with hlt | hy | hlt
    · exact absurd heq (scanIndex_lt_of_row_lt h hlt).ne
    · exact hy
    · exact absurd heq (scanIndex_lt_of_row_lt h' hlt).ne'
  subst hy
  unfold scanIndex at heq
  omega

/-- Where the cursor stands after `k` units of a run into the window (R63): at the cell of index `k`, or past the
last. -/
def Cursor.AtScan (x₁ y₁ x₂ y₂ k : Nat) : Cursor → Prop
  | .unset => False
  | .cell x y => inWindow x₁ y₁ x₂ y₂ x y ∧ scanIndex x₁ y₁ (x₂ - x₁ + 1) x y = k
  | .done => windowSize x₁ y₁ x₂ y₂ ≤ k

/-- R63's scan is the row-major order: to the next column, else to the next row's first, else past the end. -/
theorem Panel.advance_atScan {p : Panel} {x₁ y₁ x₂ y₂ : Half} {x y k : Nat} (hcol : p.colWin = some (x₁, x₂))
    (hrow : p.rowWin = some (y₁, y₂)) (h : (Cursor.cell x y).AtScan x₁.toNat y₁.toNat x₂.toNat y₂.toNat k) :
    (p.advance x y).AtScan x₁.toNat y₁.toNat x₂.toNat y₂.toNat (k + 1) := by
  obtain ⟨⟨hx₁, hx₂, hy₁, hy₂⟩, rfl⟩ := h
  simp only [Panel.advance, hcol, hrow]
  split
  · refine ⟨by omega, ?_⟩
    unfold scanIndex
    omega
  · obtain rfl : x = x₂.toNat := by omega
    split
    · refine ⟨by omega, ?_⟩
      rw [scanIndex, scanIndex, Nat.sub_add_comm hy₁, Nat.succ_mul]
      omega
    · obtain rfl : y = y₂.toNat := by omega
      rw [Cursor.AtScan, windowSize, scanIndex, Nat.mul_comm, Nat.succ_mul]
      omega

/-! ### One unit -/

/-- A data byte of a pixel stream that has nothing to settle (R57, R59). -/
theorem Ghost.byte_stream {codes : CmdCodes} {g : Ghost} (hlive : g.panel.status = .live)
    (hrst : g.panel.rstHeld = false) (hsettle : g.panel.settle = 0) (hcmd : g.panel.cmd = some codes.ramwr) (b : Byte) :
    g.byte codes true b = g.pixelByte b := by
  simp [Ghost.byte_of_live hlive hrst, Ghost.checkSettle_of_settled hsettle, Ghost.data, hcmd]

theorem Ghost.pixelByte_of_some {g : Ghost} {h : Byte} (hpend : g.panel.pend = some h) (b : Byte) :
    g.pixelByte b = Ghost.pixel (joinBytes h b) { g with panel := { g.panel with pend := none } } := by
  simp [Ghost.pixelByte, hpend]

/-- The two bytes of a unit are one pixel at the cursor (R61). -/
theorem Ghost.observeAll_unit {codes : CmdCodes} {g : Ghost} (h : g.panel.PixelReady)
    (hcmd : g.panel.cmd = some codes.ramwr) (c : Half) :
    Ghost.observeAll codes true [.byte (hiByte c), .byte (loByte c)] g = g.pixel c := by
  obtain ⟨hlive, hrst, hpend, hsettle, -⟩ := h
  have hfirst : g.byte codes true (hiByte c) = { g with panel := { g.panel with pend := some (hiByte c) } } := by
    simp [Ghost.byte_stream hlive hrst hsettle hcmd, Ghost.pixelByte, hpend]
  have hsecond : ({ g with panel := { g.panel with pend := some (hiByte c) } } : Ghost).pixelByte (loByte c) =
      g.pixel c := by
    rw [Ghost.pixelByte_of_some rfl, joinBytes_hiByte_loByte, ← hpend]
  change (g.byte codes true (hiByte c)).byte codes true (loByte c) = _
  rw [hfirst, Ghost.byte_stream, hsecond]
  exacts [hlive, hrst, hsettle, hcmd]

/-- `g` is what `k` units of colour `c` into the window (x1, y1)-(x2, y2) have made of `g₀` (R61 to R63). -/
structure Ghost.Painted (codes : CmdCodes) (x₁ y₁ x₂ y₂ c : Half) (k : Nat) (g₀ g : Ghost) : Prop where
  valid : windowValid (x₁, x₂) (y₁, y₂) = true
  ready : g.panel.PixelReady
  cmd : g.panel.cmd = some codes.ramwr
  colWin : g.panel.colWin = some (x₁, x₂)
  rowWin : g.panel.rowWin = some (y₁, y₂)
  cursor : g.panel.cur.AtScan x₁.toNat y₁.toNat x₂.toNat y₂.toNat k
  inside : ∀ x y, inWindow x₁.toNat y₁.toNat x₂.toNat y₂.toNat x y → g.gramAt x y =
    if scanIndex x₁.toNat y₁.toNat (x₂.toNat - x₁.toNat + 1) x y < k then some c else g₀.gramAt x y
  outside : ∀ a, (∀ x y, inWindow x₁.toNat y₁.toNat x₂.toNat y₂.toNat x y → a ≠ cellAddr x y ∧ a ≠ cellAddr x y + 1) →
    g.panel.gram.readByte a = g₀.panel.gram.readByte a
  faults : k ≤ windowSize x₁.toNat y₁.toNat x₂.toNat y₂.toNat → g.faults = g₀.faults
  overrun : windowSize x₁.toNat y₁.toNat x₂.toNat y₂.toNat < k → .windowOverrun ∈ g.faults

section
variable {codes : CmdCodes} {x₁ y₁ x₂ y₂ c : Half} {k : Nat} {g₀ g : Ghost}

theorem windowValid_bounds (h : windowValid (x₁, x₂) (y₁, y₂) = true) :
    x₁.toNat ≤ x₂.toNat ∧ x₂.toNat < panelSide ∧ y₁.toNat ≤ y₂.toNat ∧ y₂.toNat < panelSide :=
  of_decide_eq_true h

theorem Ghost.pixel_of_done (hcur : g.panel.cur = .done) (v : Half) : g.pixel v = g.addFault .windowOverrun := by
  simp [Ghost.pixel, hcur]

theorem Ghost.pixel_of_cell {x y : Nat} (hcur : g.panel.cur = .cell x y) (hcolmod : g.panel.colmod = some colmodData)
    (v : Half) : g.pixel v = { g with
      panel := { g.panel with gram := g.panel.gram.writeCell x y (some v), cur := g.panel.advance x y } } := by
  simp [Ghost.pixel, hcur, Panel.gramWrite, hcolmod]

/-- Past the last cell a unit paints nothing and overruns the window. -/
theorem Ghost.Painted.pixel_of_done (h : Painted codes x₁ y₁ x₂ y₂ c k g₀ g) (hcur : g.panel.cur = .done) :
    Painted codes x₁ y₁ x₂ y₂ c (k + 1) g₀ (g.pixel c) := by
  have hend : windowSize x₁.toNat y₁.toNat x₂.toNat y₂.toNat ≤ k := by
    have hcursor := h.cursor
    rwa [hcur] at hcursor
  rw [Ghost.pixel_of_done hcur]
  refine { h with cursor := ?_, inside := fun x y hin => ?_, faults := fun hk => ?_, overrun := fun _ => ?_ }
  · rw [Ghost.addFault_panel, hcur]
    exact Nat.le_succ_of_le hend
  · have hlt := scanIndex_lt_windowSize hin
    have hpainted := h.inside x y hin
    rw [if_pos (by omega)] at hpainted ⊢
    exact hpainted
  · omega
  · simp

/-- A unit paints the cell of index `k`, no other of the window, and no byte outside. -/
theorem Ghost.Painted.pixel_of_cell (h : Painted codes x₁ y₁ x₂ y₂ c k g₀ g) {x y : Nat}
    (hcur : g.panel.cur = .cell x y) : Painted codes x₁ y₁ x₂ y₂ c (k + 1) g₀ (g.pixel c) := by
  obtain ⟨-, hx, -, -⟩ := windowValid_bounds h.valid
  obtain ⟨-, -, -, -, hcolmod⟩ := h.ready
  obtain ⟨hin, hindex⟩ : (Cursor.cell x y).AtScan x₁.toNat y₁.toNat x₂.toNat y₂.toNat k := hcur ▸ h.cursor
  have hlt := scanIndex_lt_windowSize hin
  rw [Ghost.pixel_of_cell hcur hcolmod]
  refine { h with cursor := ?_, inside := fun x' y' hin' => ?_, outside := fun a ha => ?_, faults := fun _ => ?_,
                  overrun := fun hk => ?_ }
  · exact Panel.advance_atScan h.colWin h.rowWin ⟨hin, hindex⟩
  · have hcell := h.inside x' y' hin'
    have ⟨_, hx₂, _, _⟩ := hin
    have ⟨_, hx₂', _, _⟩ := hin'
    rw [Ghost.gramAt]
    by_cases heq : (x', y') = (x, y)
    · obtain ⟨rfl, rfl⟩ := Prod.mk.inj heq
      rw [Memory.readCell_writeCell_same, if_pos (by omega)]
    · have hne : scanIndex x₁.toNat y₁.toNat (x₂.toNat - x₁.toNat + 1) x' y' ≠ k := fun hk =>
        heq (Prod.mk.injEq .. ▸ scanIndex_inj hin' hin (hk.trans hindex.symm))
      rw [Memory.readCell_writeCell_other (by omega) (by omega) heq]
      refine hcell.trans ?_
      simp only [Nat.lt_succ_iff_lt_or_eq, hne, or_false]
  · obtain ⟨hhigh, hlow⟩ := ha x y hin
    rw [Memory.readByte_writeCell_other hhigh hlow, h.outside a ha]
  · exact h.faults (by omega)
  · omega

/-- Every unit paints the cell it finds the cursor at, or overruns the window. -/
theorem Ghost.Painted.pixel (h : Painted codes x₁ y₁ x₂ y₂ c k g₀ g) :
    Painted codes x₁ y₁ x₂ y₂ c (k + 1) g₀ (g.pixel c) := by
  cases hcur : g.panel.cur with
  | unset => exact absurd h.cursor (by simp [hcur, Cursor.AtScan])
  | done => exact h.pixel_of_done hcur
  | cell x y => exact h.pixel_of_cell hcur

/-- A run of units goes on painting where the scan stands. -/
theorem Ghost.Painted.units (h : Painted codes x₁ y₁ x₂ y₂ c k g₀ g) (n : Nat) :
    Painted codes x₁ y₁ x₂ y₂ c (k + n) g₀ (Ghost.observeAll codes true (unitEvents c n) g) := by
  induction n generalizing k g with
  | zero => exact h
  | succ n ih =>
    have hunit := Ghost.observeAll_append codes true [.byte (hiByte c), .byte (loByte c)] (unitEvents c n) g
    rw [Ghost.observeAll_unit h.ready h.cmd] at hunit
    have hrest := ih h.pixel
    rw [Nat.add_right_comm] at hrest
    exact hunit ▸ hrest

/-- Only the run's bytes matter to the panel: DC is driven before them, and a frame is no event of the panel (R57). -/
theorem Ghost.observeAll_runEvents (dc : Bool) (n : Nat) :
    Ghost.observeAll codes dc (runEvents c n) g = Ghost.observeAll codes true (unitEvents c n) g := by
  rw [runEvents, Ghost.observeAll_append]
  rfl

/-- A valid window opened on a ready panel: nothing is painted yet, and the cursor stands at the first cell (R60). -/
theorem Ghost.painted_windowEvents (hd : codes.Distinct) (hready : g.panel.PixelReady)
    (hvalid : windowValid (x₁, x₂) (y₁, y₂) = true) (dc : Bool) :
    Painted codes x₁ y₁ x₂ y₂ c 0 g (Ghost.observeAll codes dc (windowEvents codes x₁ y₁ x₂ y₂) g) := by
  obtain ⟨hlive, hrst, hpend, hsettle, hcolmod⟩ := hready
  obtain ⟨hx, -, hy, -⟩ := windowValid_bounds hvalid
  obtain ⟨regs, hpanel⟩ := Ghost.observeAll_windowEvents hd hlive hrst dc x₁ y₁ x₂ y₂
  rw [if_pos hvalid, if_pos hvalid, Ghost.checkSettle_of_settled hsettle, Ghost.dropOddByte_of_none hpend] at hpanel
  rw [hpanel]
  exact {
    valid := hvalid
    ready := ⟨hlive, hrst, rfl, rfl, hcolmod⟩
    cmd := rfl
    colWin := rfl
    rowWin := rfl
    cursor := ⟨by omega, by simp [scanIndex]⟩
    inside := fun _ _ _ => rfl
    outside := fun _ _ => rfl
    faults := fun _ => rfl
    overrun := fun hk => absurd hk (Nat.not_lt_zero _) }

/-- What a run of `n` units into a valid window makes of a ready panel (R166). -/
theorem Ghost.painted_window_run (hd : codes.Distinct) (hready : g.panel.PixelReady)
    (hvalid : windowValid (x₁, x₂) (y₁, y₂) = true) (dc : Bool) (n : Nat) :
    Painted codes x₁ y₁ x₂ y₂ c n g
      (Ghost.observeAll codes dc (windowEvents codes x₁ y₁ x₂ y₂ ++ runEvents c n) g) := by
  have hunits := (Ghost.painted_windowEvents (c := c) hd hready hvalid dc).units n
  rw [Nat.zero_add] at hunits
  rw [Ghost.observeAll_append, Ghost.observeAll_runEvents]
  exact hunits

/-! ### What a painted panel shows -/

theorem Ghost.Painted.gramAt_of_not_inWindow (h : Painted codes x₁ y₁ x₂ y₂ c k g₀ g) {x y : Nat} (hx : x < 240)
    (hout : ¬ inWindow x₁.toNat y₁.toNat x₂.toNat y₂.toNat x y) : g.gramAt x y = g₀.gramAt x y := by
  obtain ⟨-, hx₂, -, -⟩ := windowValid_bounds h.valid
  have haway : ∀ x' y', inWindow x₁.toNat y₁.toNat x₂.toNat y₂.toNat x' y' →
      (cellAddr x y ≠ cellAddr x' y' ∧ cellAddr x y ≠ cellAddr x' y' + 1) ∧
      (cellAddr x y + 1 ≠ cellAddr x' y' ∧ cellAddr x y + 1 ≠ cellAddr x' y' + 1) := by
    intro x' y' hin'
    have hne : cellAddr x y ≠ cellAddr x' y' := by
      intro heq
      have ⟨_, hx₂', _, _⟩ := hin'
      obtain ⟨rfl, rfl⟩ := cellAddr_inj hx (by omega) heq
      exact hout hin'
    unfold cellAddr at hne ⊢
    omega
  rw [Ghost.gramAt, Ghost.gramAt, Memory.readCell, Memory.readCell, h.outside _ fun x' y' hin' => (haway x' y' hin').1,
    h.outside _ fun x' y' hin' => (haway x' y' hin').2]

theorem Ghost.Painted.cur_of_windowSize_le (h : Painted codes x₁ y₁ x₂ y₂ c k g₀ g)
    (hk : windowSize x₁.toNat y₁.toNat x₂.toNat y₂.toNat ≤ k) : g.panel.cur = .done := by
  have hcursor := h.cursor
  cases hcur : g.panel.cur with
  | done => rfl
  | unset => simp [hcur, Cursor.AtScan] at hcursor
  | cell x y =>
    rw [hcur] at hcursor
    obtain ⟨hin, rfl⟩ := hcursor
    exact absurd (scanIndex_lt_windowSize hin) (Nat.not_lt_of_le hk)

theorem Ghost.Painted.cur_of_lt_windowSize (h : Painted codes x₁ y₁ x₂ y₂ c k g₀ g)
    (hk : k < windowSize x₁.toNat y₁.toNat x₂.toNat y₂.toNat) :
    ∃ x y, g.panel.cur = .cell x y ∧ inWindow x₁.toNat y₁.toNat x₂.toNat y₂.toNat x y ∧
      scanIndex x₁.toNat y₁.toNat (x₂.toNat - x₁.toNat + 1) x y = k := by
  have hcursor := h.cursor
  cases hcur : g.panel.cur with
  | unset => simp [hcur, Cursor.AtScan] at hcursor
  | cell x y =>
    rw [hcur] at hcursor
    exact ⟨x, y, rfl, hcursor⟩
  | done =>
    rw [hcur] at hcursor
    exact absurd hk (Nat.not_lt_of_le hcursor)

end

/-- Settles O41: the run's end state is the panel painted by `n` units, clause by clause. -/
theorem pixelCountLaw : Obligations.PixelCountLaw := by
  intro s x₁ y₁ x₂ y₂ c n hs hd hready hvalid
  have hwindow := (setAddressWindowCompletes s x₁ y₁ x₂ y₂).1 hs
  have hrun := (sendColorRunCompletes (s.afterEvents (windowEvents s.cfg.codes x₁ y₁ x₂ y₂)) c n).1 (hs.afterEvents _)
  refine ⟨_, _, hwindow, hrun, ?_⟩
  have hpainted := Ghost.painted_window_run (c := c) hd hready hvalid s.dcLvl n.toNat
  rw [Ghost.observeAll_append, foldl_dcAfter] at hpainted
  exact ⟨hpainted.inside, fun _ _ hx _ => hpainted.gramAt_of_not_inWindow hx, hpainted.cur_of_windowSize_le,
    hpainted.cur_of_lt_windowSize, hpainted.faults, hpainted.overrun⟩

end Sys2Proof.Machine
end

section
/-! PROOFS. The converter (R180 to R187): the word as three truncated channels, CONVERT and TO_NATIVE (R184, R185). -/

namespace Sys2Proof.Machine

/-! ### The packed word -/

theorem toNative_false (r g b : Byte) : toNative false r g b = pack565 r g b := rfl

theorem toNative_true (r g b : Byte) : toNative true r g b = pack565 b g r := rfl

/-- R183: each channel keeps its upper bits, and the three are set side by side. -/
theorem pack565_eq_append (hi mid lo : Byte) :
    pack565 hi mid lo = hi.extractLsb' 3 5 ++ mid.extractLsb' 2 6 ++ lo.extractLsb' 3 5 := by
  apply BitVec.eq_of_getLsbD_eq
  intro i hlt
  rw [BitVec.getLsbD_append, BitVec.getLsbD_append]
  interval_cases i <;> simp [pack565]

theorem toNat_pack565 (hi mid lo : Byte) :
    (pack565 hi mid lo).toNat = hi.toNat / 8 * 2048 + mid.toNat / 4 * 32 + lo.toNat / 8 := by
  rw [pack565_eq_append, toNat_append_eq, toNat_append_eq, toNat_extract_eq, toNat_extract_eq, toNat_extract_eq]
  omega

theorem toNat_extract_pack565_hi (hi mid lo : Byte) :
    ((pack565 hi mid lo).extractLsb' 11 5).toNat = hi.toNat / 8 := by
  rw [toNat_extract_eq, toNat_pack565]
  omega

theorem toNat_extract_pack565_mid (hi mid lo : Byte) :
    ((pack565 hi mid lo).extractLsb' 5 6).toNat = mid.toNat / 4 := by
  rw [toNat_extract_eq, toNat_pack565]
  omega

theorem toNat_extract_pack565_lo (hi mid lo : Byte) :
    ((pack565 hi mid lo).extractLsb' 0 5).toNat = lo.toNat / 8 := by
  rw [toNat_extract_eq, toNat_pack565]
  omega

/-- R186: the shift that brings the upper channel down. -/
theorem pack565_shift_hi (hi mid lo : Byte) : pack565 hi mid lo >>> 11 = (hi >>> 3).setWidth 16 := by
  apply BitVec.eq_of_toNat_eq
  rw [BitVec.toNat_ushiftRight, BitVec.toNat_setWidth, BitVec.toNat_ushiftRight, toNat_pack565,
    Nat.shiftRight_eq_div_pow, Nat.shiftRight_eq_div_pow]
  omega

theorem pack565_shift_mid (hi mid lo : Byte) : pack565 hi mid lo >>> 5 &&& 0x3F = (mid >>> 2).setWidth 16 := by
  apply BitVec.eq_of_toNat_eq
  have hmask := Nat.and_two_pow_sub_one_eq_mod ((pack565 hi mid lo).toNat >>> 5) 6
  rw [toNat_pack565, Nat.shiftRight_eq_div_pow] at hmask
  rw [BitVec.toNat_and, BitVec.toNat_ushiftRight, BitVec.toNat_setWidth, BitVec.toNat_ushiftRight, toNat_pack565,
    Nat.shiftRight_eq_div_pow, Nat.shiftRight_eq_div_pow]
  refine hmask.trans ?_
  omega

theorem pack565_mask_lo (hi mid lo : Byte) : pack565 hi mid lo &&& 0x1F = (lo >>> 3).setWidth 16 := by
  apply BitVec.eq_of_toNat_eq
  have hmask := Nat.and_two_pow_sub_one_eq_mod (pack565 hi mid lo).toNat 5
  rw [BitVec.toNat_and, BitVec.toNat_setWidth, BitVec.toNat_ushiftRight, Nat.shiftRight_eq_div_pow]
  refine hmask.trans ?_
  rw [toNat_pack565]
  omega

/-- R187: a word is packed from its own fields, filled up with zeros. -/
theorem pack565_fields (n : Half) :
    pack565 (n.extractLsb' 11 5 ++ 0#3) (n.extractLsb' 5 6 ++ 0#2) (n.extractLsb' 0 5 ++ 0#3) = n := by
  apply BitVec.eq_of_toNat_eq
  rw [toNat_pack565, toNat_append_eq, toNat_append_eq, toNat_append_eq, toNat_extract_eq, toNat_extract_eq,
    toNat_extract_eq]
  simp only [BitVec.toNat_ofNat]
  omega

/-- Settles O18: the word is its channels' upper bits side by side, the strap says in which order. -/
theorem nativeColorFields : Obligations.NativeColorFields := by
  intro r g b
  rw [toNative_false, toNative_true]
  exact ⟨pack565_eq_append r g b, pack565_eq_append b g r⟩

/-- Settles O19: the laws of the packed word, in the strap's order; a colour of word `n` is read off its fields. -/
theorem channelLaws : Obligations.ChannelLaws := by
  refine ⟨fun v r g b => ?_, fun n swapRb => ?_⟩
  · simp only [toNative_false, toNative_true]
    exact ⟨pack565_shift_hi v 0 0, pack565_shift_mid 0 v 0, pack565_mask_lo 0 0 v,
      toNat_extract_pack565_hi r g b, toNat_extract_pack565_mid r g b, toNat_extract_pack565_lo r g b,
      toNat_extract_pack565_hi b g r, toNat_extract_pack565_mid b g r, toNat_extract_pack565_lo b g r⟩
  · cases swapRb with
    | false => exact ⟨_, _, _, (toNative_false _ _ _).trans (pack565_fields n)⟩
    | true => exact ⟨_, _, _, (toNative_true _ _ _).trans (pack565_fields n)⟩

/-! ### CONVERT and TO_NATIVE -/

theorem State.perform_convert {s : State} (hp : s.pauses = []) (r g b : Byte) :
    State.perform [.convert r g b] s = { s with cvNative := toNative s.cfg.swapRb r g b } := by
  rw [State.perform_of_no_call hp rfl, State.effects_eq_foldl hp]
  rfl

/-- The converter's output goes to NATIVE_RESULT, and the operation completes (R185). -/
theorem State.perform_convert_store {s : State} (hp : s.pauses = []) (r g b : Byte) :
    State.perform [.convert r g b, .storeNative, .complete statusOk] s =
      { s with
        cvNative := toNative s.cfg.swapRb r g b,
        nativeResult := toNative s.cfg.swapRb r g b }.finish statusOk := by
  rw [State.perform_of_no_call hp rfl, State.effects_eq_foldl hp]
  rfl

theorem exec_convert (s : State) (r g b : Byte) :
    exec (.convert r g b) s =
      s.operate (colorLatches 6 r g b) [.convert r g b, .storeNative, .complete statusOk] := rfl

theorem exec_toNative (s : State) (r g b : Byte) : exec (.toNative r g b) s = s.micro [.convert r g b] := rfl

/-- Settles O20: neither operation makes a call, so each does its acts whatever the transport, and CONVERT, accepted
with SEQ idle, leaves SEQ idle. -/
theorem conversionsComplete : Obligations.ConversionsComplete := by
  intro s r g b hp
  refine ⟨?_, fun ha => ⟨colorLatches 6 r g b, rfl, rfl, rfl, rfl, ?_⟩⟩
  · rw [exec_toNative, State.micro, State.perform_convert hp]
  · have hrun := State.perform_convert_store (s := s.accept (colorLatches 6 r g b)) hp r g b
    rw [exec_convert, State.operate_of_accepts ha, hrun, State.finish, ← State.seq_of_accepts ha]
    rfl

end Sys2Proof.Machine
end

section
/-! PROOFS. UPDATE and DUMP_CONFIG (R192, R193): operations that make no call. -/

namespace Sys2Proof.Machine

/-- An operation that makes no call and completes last: its acts before that, from the accepted state (R190). -/
theorem State.operate_of_no_call {s : State} (ha : s.accepts = true) (hp : s.pauses = []) (l : Latches)
    {as : List Act} (h : callCount (as.flatMap Act.events) = 0) (status : BitVec 4) :
    s.operate l (as ++ [.complete status]) = .next (((s.accept l).effects as).finish status) := by
  have hcount : callCount ((as ++ [Act.complete status]).flatMap Act.events) = 0 := by
    rw [List.flatMap_append, callCount_append, h]
    rfl
  rw [State.operate_of_accepts ha, State.perform_of_no_call (s := s.accept l) hp hcount, State.effects_append,
    State.effects_cons (State.effects_pauses (s := s.accept l) hp)]
  rfl

/-! ### UPDATE -/

theorem updateActs_of_not_ready {s : State} (hr : s.ready = false) :
    updateActs s = [.emitWarn, .setWarn] ++ [.complete statusWarnNotReady] := by
  simp [updateActs, hr]

theorem updateActs_of_ready {s : State} (hr : s.ready = true) : updateActs s = [.complete statusOk] := by
  simp [updateActs, hr]

theorem exec_update (s : State) : exec .update s = s.operate (plainLatches 2) (updateActs s) := rfl

/-- The warning is emitted, which the panel does not see, and recorded (R57, R192). -/
theorem State.effects_warn {s : State} (hp : s.pauses = []) :
    s.effects [.emitWarn, .setWarn] = { s with trace := s.trace ++ [.warn .notReady], warnNotReady := true } := by
  rw [State.effects_eq_foldl hp]
  rfl

/-- Settles O42: not ready UPDATE warns and completes, ready it only completes. -/
theorem updateReports : Obligations.UpdateReports := by
  intro s ha hp
  refine ⟨fun hr => ⟨plainLatches 2, rfl, ?_⟩, fun hr => ⟨plainLatches 2, rfl, ?_⟩⟩
  · rw [exec_update, updateActs_of_not_ready hr, State.operate_of_no_call ha hp _ rfl,
      State.effects_warn (s := s.accept _) hp, State.finish, ← State.seq_of_accepts ha]
    rfl
  · rw [exec_update, updateActs_of_ready hr, State.operate_complete ha hp]
    rfl

/-! ### DUMP_CONFIG -/

/-- Acceptance sets bit 4 of STATUS, and no other (R38, R190). -/
theorem State.statusReg_accept {s : State} (ha : s.accepts = true) (l : Latches) :
    (s.accept l).statusReg = s.statusReg ||| 0x0010 := by
  have hbit : ∀ r t i w : Bool,
      (0#11) ++ BitVec.ofBool true ++ BitVec.ofBool w ++ BitVec.ofBool i ++ BitVec.ofBool t ++ BitVec.ofBool r =
      ((0#11) ++ BitVec.ofBool false ++ BitVec.ofBool w ++ BitVec.ofBool i ++ BitVec.ofBool t ++ BitVec.ofBool r) |||
        0x0010#16 := by decide
  have hidle : s.busy = false := by simp [State.busy, State.seq_of_accepts ha]
  rw [State.statusReg, State.statusReg, hidle]
  exact hbit s.ready s.errTransport s.errIllegalOp s.warnNotReady

/-- The registers as an operation reads them just after its acceptance: only BUSY has changed (R193). -/
theorem State.snapshot_accept {s : State} (ha : s.accepts = true) (l : Latches) :
    (s.accept l).snapshot = [0x00F0, 0x00F0, 0x0001, s.regValue 0x3 ||| 0x0010, s.regValue 0x4, s.regValue 0x5,
      s.nativeResult, s.regValue 0x7] := by
  rw [State.regValue_status, ← State.statusReg_accept ha l]
  rfl

theorem exec_dumpConfig (s : State) :
    exec .dumpConfig s = s.operate (plainLatches 3) ([.emitReport] ++ [.complete statusOk]) := rfl

/-- The report is emitted, which the panel does not see (R57, R193). -/
theorem State.effects_report {s : State} (hp : s.pauses = []) :
    s.effects [.emitReport] = { s with trace := s.trace ++ [.report s.snapshot] } := by
  rw [State.effects_eq_foldl hp]
  rfl

/-- Settles O43: the snapshot is taken in the accepted state, in which BUSY is set. -/
theorem dumpConfigReports : Obligations.DumpConfigReports := by
  intro s ha hp
  refine ⟨plainLatches 3, rfl, ?_⟩
  rw [exec_dumpConfig, State.operate_of_no_call ha hp _ rfl, State.effects_report (s := s.accept _) hp,
    State.snapshot_accept ha, State.finish, ← State.seq_of_accepts ha]
  rfl

end Sys2Proof.Machine
end

section
/-! PROOFS. What acts assign beside emitting their events, and that the two commute: so a run's events can be taken first
and its assignments after them. -/

namespace Sys2Proof.Machine

/-- What an act assigns beyond what its event accounts for: the level of DC, FRAME_OPEN and the oracle are the event's
(`State.afterEvents`). -/
def State.assign (a : Act) (s : State) : State :=
  match a with
  | .pinConfigure p => s.setPinCfg p
  | .pinWrite .dc _ | .tcall _ | .wait _ _ | .emitWarn | .emitReport => s
  | .pinWrite p l => s.setPinLvl p l
  | a => s.effect a

/-- The assignments of `as`, in order. -/
def State.assigns (as : List Act) (s : State) : State := as.foldl (fun s a => s.assign a) s

theorem State.assigns_nil (s : State) : s.assigns [] = s := rfl

theorem State.assigns_append (as bs : List Act) (s : State) : s.assigns (as ++ bs) = (s.assigns as).assigns bs :=
  List.foldl_append

theorem State.assigns_cons (a : Act) (as : List Act) (s : State) : s.assigns (a :: as) = (s.assign a).assigns as := rfl

/-- The report's event is left out: it holds the registers at that moment. -/
theorem State.effect_eq_assign {a : Act} (ha : a ≠ .emitReport) (s : State) :
    s.effect a = (s.afterEvents a.events).assign a := by
  cases a with
  | emitReport => exact absurd rfl ha
  | pinConfigure p => cases p <;> rfl
  | pinWrite p l => cases p <;> rfl
  | tcall c =>
    have hnext : s.transport.next = s.transport.after 1 := by simp [Transport.next, Transport.after]
    rw [State.effect, hnext]
    cases c <;> rfl
  | wait _ _ | emitWarn => rfl
  | _ => rw [Act.events, State.afterEvents_nil]; rfl

theorem State.assign_afterEvents (a : Act) (s : State) (evs : List Event) :
    (s.assign a).afterEvents evs = (s.afterEvents evs).assign a := by
  cases a with
  | pinConfigure p => cases p <;> rfl
  | pinWrite p l => cases p <;> rfl
  | _ => rfl

/-- A run whose calls are all answered OK: its events, then its assignments. -/
theorem State.effects_eq_assigns {as : List Act} {s : State} (hp : s.pauses = []) (hrep : Act.emitReport ∉ as) :
    s.effects as = (s.afterEvents (as.flatMap Act.events)).assigns as := by
  induction as generalizing s with
  | nil => exact s.afterEvents_nil.symm
  | cons a as ih =>
    obtain ⟨ha, has⟩ : Act.emitReport ≠ a ∧ Act.emitReport ∉ as := by simpa using hrep
    rw [State.effects_cons hp, ih ((State.effect_pauses a s).trans hp) has, State.effect_eq_assign ha.symm,
      State.assign_afterEvents, ← State.afterEvents_append]
    rfl

/-- Acts of the framing layer assign nothing but RUN_CNT. -/
theorem WireActs.assigns {as : List Act} (h : WireActs as) (s : State) :
    s.assigns as = { s with runCnt := runCntAfter s.runCnt as } := by
  induction h generalizing s with
  | nil => rfl
  | dc _ _ ih | call _ _ ih | wait _ _ _ ih | runLoad _ _ ih | runNext _ ih => exact ih _

end Sys2Proof.Machine
end

section
/-! PROOFS. SETUP (R191): its parts in order, for every strap setting and admissible ROM. -/

namespace Sys2Proof.Machine

/-! ### The events of SETUP -/

theorem setupEvents_eq (cfg : Config) (rom : List RomEntry) :
    setupEvents cfg rom = [.tCfg, .pinCfg .dc, .pin .dc false] ++ (setupResetActs cfg).flatMap Act.events ++
      romEvents rom ++ (setupBacklightActs cfg).flatMap Act.events := by
  unfold setupEvents setupResetActs setupBacklightActs
  cases cfg.hasRst <;> cases cfg.hasBl <;> rfl

theorem setupActs_events (cfg : Config) (rom : List RomEntry) :
    (setupActs cfg rom).flatMap Act.events = setupEvents cfg rom := by
  have hrom : (runInitActs rom).flatMap Act.events = romEvents rom := romActs_events rom
  simp [setupActs, setupEvents_eq, hrom, Act.events, TCall.event]

theorem setupResetActs_emitReport_notMem (cfg : Config) : Act.emitReport ∉ setupResetActs cfg := by
  unfold setupResetActs
  split <;> simp [hwResetPulseActs]

theorem setupBacklightActs_emitReport_notMem (cfg : Config) : Act.emitReport ∉ setupBacklightActs cfg := by
  unfold setupBacklightActs
  split <;> simp

theorem setupActs_emitReport_notMem (cfg : Config) (rom : List RomEntry) : Act.emitReport ∉ setupActs cfg rom := by
  simp [setupActs, runInitActs, setupResetActs_emitReport_notMem, setupBacklightActs_emitReport_notMem,
    romActs_emitReport_notMem]

/-- Events beside the wire: they make no call, and leave DC and the frame as they are (R110, R111). -/
structure OffWire (es : List Event) : Prop where
  callCount : callCount es = 0
  levelAfter (l : Bool) : levelAfter .dc l es = l
  frameAfter (wasOpen : Bool) : frameAfter wasOpen es = wasOpen

theorem setupResetActs_offWire (cfg : Config) : OffWire ((setupResetActs cfg).flatMap Act.events) := by
  unfold setupResetActs
  cases cfg.hasRst <;> exact ⟨rfl, fun _ => rfl, fun _ => rfl⟩

theorem setupBacklightActs_offWire (cfg : Config) : OffWire ((setupBacklightActs cfg).flatMap Act.events) := by
  unfold setupBacklightActs
  cases cfg.hasBl <;> exact ⟨rfl, fun _ => rfl, fun _ => rfl⟩

theorem callCount_setupEvents (cfg : Config) (rom : List RomEntry) :
    callCount (setupEvents cfg rom) = 1 + romCalls rom := by
  rw [setupEvents_eq, callCount_append, callCount_append, callCount_append, (setupResetActs_offWire cfg).callCount,
    (setupBacklightActs_offWire cfg).callCount, callCount_romEvents]
  rfl

/-- SETUP writes DC low before the ROM, so the level it had before does not matter (R191). -/
theorem levelAfter_setupEvents (l : Bool) (cfg : Config) (rom : List RomEntry) :
    levelAfter .dc l (setupEvents cfg rom) = dcAfterRom false rom := by
  rw [setupEvents_eq, levelAfter_append, levelAfter_append, levelAfter_append,
    (setupResetActs_offWire cfg).levelAfter, (setupBacklightActs_offWire cfg).levelAfter, levelAfter_romEvents]
  rfl

theorem frameAfter_setupEvents (wasOpen : Bool) (cfg : Config) {rom : List RomEntry} (h : rom ≠ []) :
    frameAfter wasOpen (setupEvents cfg rom) = false := by
  rw [setupEvents_eq, frameAfter_append, frameAfter_append, (setupBacklightActs_offWire cfg).frameAfter,
    frameAfter_romEvents _ h]

/-! ### The assignments of SETUP -/

theorem regWriteActs_assigns (e : RomEntry) (s : State) : s.assigns (regWriteActs e) = s := by
  rw [(regWriteActs_wire e).assigns, regWriteActs_runCnt]

theorem romActs_assigns (rom : List RomEntry) {s : State} (hi : s.romIdx ≤ s.cfg.romEntries) :
    s.assigns (romActs rom) = { s with romIdx := min (s.romIdx + rom.length) s.cfg.romEntries } := by
  induction rom generalizing s with
  | nil =>
    have hidx : min (s.romIdx + 0) s.cfg.romEntries = s.romIdx := Nat.min_eq_left hi
    rw [List.length_nil, hidx]
    rfl
  | cons e es ih =>
    have hidx : min (min (s.romIdx + 1) s.cfg.romEntries + es.length) s.cfg.romEntries =
        min (s.romIdx + (e :: es).length) s.cfg.romEntries := by
      rw [List.length_cons]
      omega
    rw [romActs, romEntryActs, State.assigns_append, State.assigns_append, regWriteActs_assigns, State.assigns_cons,
      State.assigns_nil, ih (s := s.assign .romNext) (Nat.min_le_right _ _), ← hidx]
    rfl

/-- RUN_INIT takes ROM_IDX through the whole of an admissible ROM (R137). -/
theorem runInitActs_assigns {rom : List RomEntry} {s : State} (h : rom.length = s.cfg.romEntries) :
    s.assigns (runInitActs rom) = { s with romIdx := s.cfg.romEntries } := by
  have hidx : min (0 + rom.length) s.cfg.romEntries = s.cfg.romEntries := by simp [h]
  rw [runInitActs, State.assigns_cons, romActs_assigns _ (s := s.assign .romStart) (Nat.zero_le _), ← hidx]
  rfl

/-- The optional reset pin is configured, and high after the pulse (R31, R138). -/
theorem setupResetActs_assigns (cfg : Config) (s : State) :
    s.assigns (setupResetActs cfg) = { s with rstCfg := s.rstCfg || cfg.hasRst, rstLvl := s.rstLvl || cfg.hasRst } := by
  unfold setupResetActs
  cases cfg.hasRst with
  | false => simp only [Bool.or_false]; rfl
  | true => simp only [Bool.or_true]; rfl

theorem setupBacklightActs_assigns (cfg : Config) (s : State) :
    s.assigns (setupBacklightActs cfg) = { s with blCfg := s.blCfg || cfg.hasBl, blLvl := s.blLvl || cfg.hasBl } := by
  unfold setupBacklightActs
  cases cfg.hasBl with
  | false => simp only [Bool.or_false]; rfl
  | true => simp only [Bool.or_true]; rfl

theorem setupActs_assigns {rom : List RomEntry} {s : State} (h : rom.length = s.cfg.romEntries) :
    s.assigns (setupActs s.cfg rom) = { s with
      ready := true, errTransport := false, errIllegalOp := false, warnNotReady := false,
      romIdx := s.cfg.romEntries, dcCfg := true,
      rstCfg := s.rstCfg || s.cfg.hasRst, rstLvl := s.rstLvl || s.cfg.hasRst,
      blCfg := s.blCfg || s.cfg.hasBl, blLvl := s.blLvl || s.cfg.hasBl }.finish statusOk := by
  rw [setupActs, State.assigns_append, State.assigns_append, setupResetActs_assigns, State.assigns_append,
    runInitActs_assigns (by exact h), State.assigns_append, setupBacklightActs_assigns]
  rfl

/-! ### The run -/

theorem exec_setup {s : State} {rom : List RomEntry} (h : initRom s.cfg = some rom) :
    exec .setup s = s.operate (plainLatches 1) (setupActs s.cfg rom) := by
  change execSetup s = _
  simp [execSetup, h]

/-- The trace of R191, then the assignments. -/
theorem State.perform_setupActs {s : State} {rom : List RomEntry} (hs : s.Undisturbed) (h : initRom s.cfg = some rom) :
    State.perform (setupActs s.cfg rom) s = { s.afterEvents (setupEvents s.cfg rom) with
      ready := true, errTransport := false, errIllegalOp := false, warnNotReady := false,
      romIdx := s.cfg.romEntries, dcCfg := true,
      rstCfg := s.rstCfg || s.cfg.hasRst, rstLvl := s.rstLvl || s.cfg.hasRst,
      blCfg := s.blCfg || s.cfg.hasBl, blLvl := s.blLvl || s.cfg.hasBl }.finish statusOk := by
  rw [State.perform_eq_effects hs, State.effects_eq_assigns hs.2.2 (setupActs_emitReport_notMem _ _),
    setupActs_events]
  exact setupActs_assigns (s := s.afterEvents _) (length_of_initRom h)

/-- Settles O33: undisturbed, SETUP's events and its assignments; a failing call aborts it along its trace. -/
theorem setupCompletes : Obligations.SetupCompletes := by
  intro s rom ha h
  have hfails := State.failsAlong_of_operate ha (exec_setup h) (setupActs_emitReport_notMem _ _)
  rw [setupActs_events] at hfails
  refine ⟨fun hs => ⟨plainLatches 1, rfl, ?_⟩, hfails⟩
  have hrun := State.perform_setupActs (s := s.accept (plainLatches 1)) hs h
  rw [State.afterEvents, levelAfter_setupEvents, frameAfter_setupEvents _ _ (ne_nil_of_initRom h),
    callCount_setupEvents] at hrun
  rw [exec_setup h, State.operate_of_accepts ha]
  refine (congrArg Host.Outcome.next hrun).trans ?_
  rw [State.finish, ← State.seq_of_accepts ha]
  rfl

end Sys2Proof.Machine
end

section
/-! PROOFS. ILLEGAL descriptors (R214): the step of a descriptor that is accepted, and its rejection. -/

namespace Sys2Proof.Machine

/-- A descriptor presented to a block that accepts is taken (R190). -/
theorem State.select_of_accepted_descriptor {s : State} {w : Descriptor} {rest : List Input}
    (hi : s.inputs = .code (.descriptor w) :: rest) (ha : s.accepts = true) :
    s.select = State.take (.descriptor w) { s with inputs := rest } := by
  obtain ⟨hr, hfree⟩ := (State.accepts_iff s).mp ha
  simp [State.select, hi, hr, hfree]

/-- A reserved field is rejected by the decoder, an unused OPC runs its row: the effect is the same (R101, R214;
log 17). -/
theorem State.take_of_illegal {w : Descriptor} (hill : isIllegal (decodeDescriptor w) = true) (s : State) :
    State.take (.descriptor w) s = .illegal s ∨
    ∃ i, State.take (.descriptor w) s = .run i s ∧ exec i s = s.rejectDescriptor := by
  cases hd : decodeDescriptor w with
  | rejected r => exact .inl (by simp [State.take, decode, hd])
  | ok i =>
    refine .inr ⟨i, by simp [State.take, decode, hd], ?_⟩
    rw [hd] at hill
    cases i with
    | illegalOpc0 u | illegalOpc7 u | illegalOpc8F v => rfl
    | _ => cases hill

theorem step_of_illegal_descriptor {s : State} {w : Descriptor} {rest : List Input} (h : romAdmissible s.cfg = true)
    (hi : s.inputs = .code (.descriptor w) :: rest) (ha : s.accepts = true)
    (hill : isIllegal (decodeDescriptor w) = true) :
    step s = { s with opDone := false, inputs := rest }.rejectDescriptor := by
  have hselect := State.select_of_accepted_descriptor (s := { s with opDone := false }) hi ha
  rw [step, State.fetch_of_admissible h, hselect]
  rcases State.take_of_illegal hill { s with opDone := false, inputs := rest } with htake | ⟨i, htake, hexec⟩
  · rw [htake]
  · rw [htake]
    exact hexec

theorem State.rejectDescriptor_of_accepts {s : State} (ha : s.accepts = true) (hp : s.pauses = []) :
    s.rejectDescriptor = .next { s with errIllegalOp := true, opDone := true, opStatus := statusErrIllegalOp } := by
  have hrun : State.perform [.setIllegalOp, .complete statusErrIllegalOp] { s with seq := .busy, opDone := false } =
      { s with seq := .idle, errIllegalOp := true, opDone := true, opStatus := statusErrIllegalOp } := by
    rw [State.perform_of_no_call (by exact hp) rfl, State.effects_eq_foldl (by exact hp)]
    rfl
  rw [State.rejectDescriptor, if_pos ha, hrun, ← State.seq_of_accepts ha]

/-- Settles O9: the step rejects the descriptor, and the rejection is two acts that make no call. -/
theorem stepRejectsIllegalDescriptors : Obligations.StepRejectsIllegalDescriptors := by
  intro s w rest h hi ha hp hill
  rw [step_of_illegal_descriptor h hi ha hill, State.rejectDescriptor_of_accepts (by exact ha) (by exact hp)]
  rfl

end Sys2Proof.Machine
end

section
/-! PROOFS. A failed transport call (R213): where the run ends, what the abort leaves of each field, and the operations
that make calls. -/

namespace Sys2Proof.Machine

/-! ### Where a failing run ends -/

/-- The call after `k` others in the events of some acts belongs to one of them; the acts before it have the events
before it. -/
theorem exists_acts_before_call {as : List Act} {k : Nat} {c : TCall}
    (hc : nthCall k (as.flatMap Act.events) = some c) :
    ∃ pre rest, as = pre ++ .tcall c :: rest ∧ callCount (pre.flatMap Act.events) = k ∧
      beforeCall k (as.flatMap Act.events) = pre.flatMap Act.events := by
  induction as generalizing k with
  | nil => simp [nthCall] at hc
  | cons a as ih =>
    rw [List.flatMap_cons] at hc ⊢
    by_cases hcall : a.events.filterMap Event.call = []
    · rw [nthCall_append_of_no_call hcall] at hc
      obtain ⟨pre, rest, rfl, hk, hbefore⟩ := ih hc
      refine ⟨a :: pre, rest, rfl, ?_, ?_⟩
      · rw [List.flatMap_cons, callCount_append, hk, callCount, hcall, List.length_nil, Nat.zero_add]
      · rw [beforeCall_append_of_no_call hcall, hbefore, List.flatMap_cons]
    · obtain ⟨c', rfl⟩ := Act.eq_tcall_of_callCount_pos (List.length_pos_iff.mpr hcall)
      simp only [Act.events, List.singleton_append] at hc ⊢
      cases k with
      | zero =>
        obtain rfl : c' = c := by simpa using hc
        exact ⟨[], as, rfl, rfl, beforeCall_zero_event _ _⟩
      | succ k =>
        rw [nthCall_succ_event] at hc
        obtain ⟨pre, rest, rfl, hk, hbefore⟩ := ih hc
        refine ⟨.tcall c' :: pre, rest, rfl, ?_, ?_⟩
        · simp [← hk, callCount, Act.events]
        · rw [beforeCall_succ_event, hbefore]
          rfl

/-- A run whose call fails does the acts before the call, and is aborted. -/
theorem State.perform_of_fails {as : List Act} {s : State} {k : Nat} {c : TCall} {later : List Answer}
    (hs : s.Answers k .fail later) (hc : nthCall k (as.flatMap Act.events) = some c) :
    ∃ pre, pre.flatMap Act.events = beforeCall k (as.flatMap Act.events) ∧
      State.perform as s = ((s.effects pre).failCall c).abortTransport := by
  obtain ⟨pre, rest, rfl, rfl, hbefore⟩ := exists_acts_before_call hc
  obtain ⟨hp, hscript⟩ := hs
  obtain ⟨hp', hscript'⟩ := State.effects_answers hp hscript
  have hfail := State.act_of_answer_fail c (s := s.effects pre) (by simp [Transport.answer, hscript'])
  exact ⟨pre, hbefore.symm, by
    rw [State.perform_append_of_answered hp hscript, State.perform_cons_of_failed hp' hfail]⟩

/-! ### The pins -/

/-- `S.p_LVL` (R31). -/
def State.pinLvl (p : Pin) (s : State) : Bool :=
  match p with
  | .dc => s.dcLvl
  | .rst => s.rstLvl
  | .bl => s.blLvl

/-- `S.p_CFG` (R31). -/
def State.pinCfg (p : Pin) (s : State) : Bool :=
  match p with
  | .dc => s.dcCfg
  | .rst => s.rstCfg
  | .bl => s.blCfg

theorem cfgAfter_append (p : Pin) (c : Bool) (es fs : List Event) :
    cfgAfter p c (es ++ fs) = cfgAfter p (cfgAfter p c es) fs := by
  simp [cfgAfter, Bool.or_assoc]

/-- Every pin of `t` is as the events `evs` leave it, from `s` (R111). -/
def State.PinsFollow (s : State) (evs : List Event) (t : State) : Prop :=
  ∀ p, t.pinLvl p = levelAfter p (s.pinLvl p) evs ∧ t.pinCfg p = cfgAfter p (s.pinCfg p) evs

theorem State.PinsFollow.trans {s t u : State} {es fs : List Event} (h : s.PinsFollow es t) (h' : t.PinsFollow fs u) :
    s.PinsFollow (es ++ fs) u := fun p => by
  rw [(h' p).1, (h' p).2, (h p).1, (h p).2, levelAfter_append, cfgAfter_append]
  exact ⟨rfl, rfl⟩

theorem State.effect_pinsFollow (a : Act) (s : State) : s.PinsFollow a.events (s.effect a) := by
  intro p
  cases a with
  | pinConfigure q =>
    refine ⟨by cases q <;> cases p <;> rfl, ?_⟩
    cases q <;> cases p <;> simp [State.effect, State.pinConfigure, State.pinCfg, cfgAfter, Act.events]
  | pinWrite q l => cases q <;> cases p <;> exact ⟨rfl, (Bool.or_false _).symm⟩
  | tcall c => cases c <;> cases p <;> exact ⟨rfl, (Bool.or_false _).symm⟩
  | _ => cases p <;> exact ⟨rfl, (Bool.or_false _).symm⟩

theorem State.effects_pinsFollow {as : List Act} {s : State} (hp : s.pauses = []) :
    s.PinsFollow (as.flatMap Act.events) (s.effects as) := by
  induction as generalizing s with
  | nil => exact fun _ => ⟨rfl, (Bool.or_false _).symm⟩
  | cons a as ih =>
    rw [State.effects_cons hp]
    exact (State.effect_pinsFollow a s).trans (ih ((State.effect_pauses a s).trans hp))

/-! ### The abort of an operation -/

/-- A failed call leaves the panel CORRUPT and TRANSPORT recorded (R110). -/
theorem State.observed_tFail (s : State) (evs : List Event) (c : TCall) :
    (s.observed (evs ++ [.tFail c])).panel.status = .corrupt ∧
      .transport ∈ (s.observed (evs ++ [.tFail c])).faults := by
  rw [State.observed_append]
  exact ⟨rfl, (Ghost.mem_addFault .transport _ _).mpr (.inl rfl)⟩

/-- `t` is what is left of an operation from `s` whose call `c` fails after the events `evs`: the abort, the completion
with status 2, and the pins as the events leave them (R213). -/
structure State.CompletesAborted (s : State) (evs : List Event) (c : TCall) (later : List Answer) (t : State) : Prop
    extends s.AbortsAfter evs c later t where
  seq : t.seq = .idle
  work : t.work = []
  opDone : t.opDone = true
  opStatus : t.opStatus = statusErrTransport
  pins : s.PinsFollow evs t

theorem State.accept_emits (l : Latches) (s : State) : s.Emits [] (s.accept l) where
  cfg := rfl
  trace := (List.append_nil s.trace).symm
  ghost := rfl
  frameOpen := rfl
  dcLvl := rfl

theorem State.accept_perform_completesAborted {as : List Act} {s : State} {k : Nat} {c : TCall} {later : List Answer}
    (l : Latches) (hs : s.Answers k .fail later) (hrep : Act.emitReport ∉ as)
    (hc : nthCall k (as.flatMap Act.events) = some c) :
    s.CompletesAborted (beforeCall k (as.flatMap Act.events)) c later (State.perform as (s.accept l)) := by
  have haborts := State.perform_aborts (s := s.accept l) hs hrep hc
  obtain ⟨pre, hpre, hrun⟩ := State.perform_of_fails (s := s.accept l) hs hc
  rw [hrun, ← hpre] at haborts ⊢
  exact { haborts.of_emits (s.accept_emits l) with
    seq := rfl, work := rfl, opDone := rfl, opStatus := rfl
    pins := fun p => by
      have hpins := State.effects_pinsFollow (as := pre) (s := s.accept l) hs.1 p
      cases p <;> exact hpins }

/-! ### The fields that the acts before a call leave alone -/

/-- `t` has the latches, NATIVE_RESULT and the two sticky bits that no call sets as `s` has them. -/
structure State.HostFieldsKept (s t : State) : Prop where
  latches : t.latches = s.latches
  nativeLatch : t.nativeLatch = s.nativeLatch
  nativeResult : t.nativeResult = s.nativeResult
  errIllegalOp : t.errIllegalOp = s.errIllegalOp
  warnNotReady : t.warnNotReady = s.warnNotReady

/-- The acts that write none of these fields. -/
def Act.keepsHostFields : Act → Bool
  | .clearSticky | .setIllegalOp | .setWarn | .latchNative | .storeNative => false
  | _ => true

theorem State.effect_hostFieldsKept {a : Act} (ha : a.keepsHostFields = true) (s : State) :
    s.HostFieldsKept (s.effect a) := by
  cases a with
  | clearSticky | setIllegalOp | setWarn | latchNative | storeNative => cases ha
  | pinConfigure p | pinWrite p l => cases p <;> exact ⟨rfl, rfl, rfl, rfl, rfl⟩
  | _ => exact ⟨rfl, rfl, rfl, rfl, rfl⟩

theorem State.HostFieldsKept.trans {s t u : State} (h : s.HostFieldsKept t) (h' : t.HostFieldsKept u) :
    s.HostFieldsKept u :=
  ⟨h'.latches.trans h.latches, h'.nativeLatch.trans h.nativeLatch, h'.nativeResult.trans h.nativeResult,
    h'.errIllegalOp.trans h.errIllegalOp, h'.warnNotReady.trans h.warnNotReady⟩

/-- However such acts end, an abort among the ways, the fields are as before. -/
theorem State.perform_hostFieldsKept {as : List Act} (h : ∀ a ∈ as, a.keepsHostFields = true) (s : State) :
    s.HostFieldsKept (State.perform as s) :=
  State.perform_keeps (P := s.HostFieldsKept) ⟨rfl, rfl, rfl, rfl, rfl⟩
    (fun a ha t ht => ht.trans (State.effect_hostFieldsKept (h a ha) t))
    (fun _ _ ht => ht.trans ⟨rfl, rfl, rfl, rfl, rfl⟩) (fun _ _ _ _ _ ht => ht.trans ⟨rfl, rfl, rfl, rfl, rfl⟩)

theorem WireActs.keepsHostFields {as : List Act} (h : WireActs as) : ∀ a ∈ as, a.keepsHostFields = true := by
  induction h with
  | nil => simp
  | dc _ _ ih | call _ _ ih | wait _ _ _ ih | runLoad _ _ ih | runNext _ ih => exact List.forall_mem_cons.mpr ⟨rfl, ih⟩

/-! ### A failing PIXEL or FILL -/

/-- The acts of PIXEL and FILL before the colour run: the window, and the colour latched (R164, R165). -/
def paintHeadActs (cfg : Config) (x₁ y₁ x₂ y₂ : Half) (r g b : Byte) : List Act :=
  setAddressWindowActs cfg.codes x₁ y₁ x₂ y₂ ++ [.convert r g b, .latchNative]

theorem paintActs_eq (cfg : Config) (x₁ y₁ x₂ y₂ : Half) (n : BitVec 32) (r g b : Byte) :
    paintActs cfg x₁ y₁ x₂ y₂ n r g b =
      paintHeadActs cfg x₁ y₁ x₂ y₂ r g b ++ (sendColorRunActs (toNative cfg.swapRb r g b) n ++ [.complete statusOk]) :=
  (List.append_assoc ..).symm

theorem callCount_paintHeadActs (cfg : Config) (x₁ y₁ x₂ y₂ : Half) (r g b : Byte) :
    callCount ((paintHeadActs cfg x₁ y₁ x₂ y₂ r g b).flatMap Act.events) = 25 := rfl

theorem State.paintHeadActs_effects {s : State} (hp : s.pauses = []) (x₁ y₁ x₂ y₂ : Half) (r g b : Byte) :
    s.effects (paintHeadActs s.cfg x₁ y₁ x₂ y₂ r g b) = { s.afterEvents (windowEvents s.cfg.codes x₁ y₁ x₂ y₂) with
      cvNative := toNative s.cfg.swapRb r g b, nativeLatch := toNative s.cfg.swapRb r g b } := by
  rw [paintHeadActs, State.effects_append, (setAddressWindowActs_wire _ _ _ _ _).effects_eq hp rfl,
    State.effects_eq_foldl (by exact hp)]
  rfl

/-- A failing paint fails among acts of the framing layer: those of the window, or, with the colour latched, those
of the run. -/
theorem State.perform_paintActs_of_fails {s : State} {k : Nat} {later : List Answer} {x₁ y₁ x₂ y₂ : Half}
    {n : BitVec 32} {r g b : Byte} (hs : s.Answers k .fail later)
    (hk : k < callCount ((paintActs s.cfg x₁ y₁ x₂ y₂ n r g b).flatMap Act.events)) :
    State.HostFieldsKept { s with nativeLatch := if k < 25 then s.nativeLatch else toNative s.cfg.swapRb r g b }
        (State.perform (paintActs s.cfg x₁ y₁ x₂ y₂ n r g b) s) ∧
      (State.perform (paintActs s.cfg x₁ y₁ x₂ y₂ n r g b) s).romIdx = s.romIdx := by
  by_cases hfirst : k < 25
  · have hwindow := setAddressWindowActs_wire s.cfg.codes x₁ y₁ x₂ y₂
    rw [paintActs, State.perform_append_of_fails hs (by exact hfirst), if_pos hfirst]
    exact ⟨State.perform_hostFieldsKept hwindow.keepsHostFields s, hwindow.perform_romIdx s⟩
  · have hrun := sendColorRunActs_wire (toNative s.cfg.swapRb r g b) n
    obtain ⟨hp, hscript⟩ := hs
    obtain ⟨m, rfl⟩ := Nat.exists_eq_add_of_le (Nat.le_of_not_lt hfirst)
    rw [paintActs_events, callCount_append, callCount_windowEvents, ← sendColorRunActs_events] at hk
    rw [← callCount_paintHeadActs s.cfg x₁ y₁ x₂ y₂ r g b, ← List.replicate_append_replicate, List.append_assoc]
      at hscript
    have hhead := State.paintHeadActs_effects hp x₁ y₁ x₂ y₂ r g b
    have hlatched : State.HostFieldsKept { s with nativeLatch := toNative s.cfg.swapRb r g b }
        (s.effects (paintHeadActs s.cfg x₁ y₁ x₂ y₂ r g b)) := by
      rw [hhead]
      exact ⟨rfl, rfl, rfl, rfl, rfl⟩
    rw [paintActs_eq, State.perform_append_of_answered hp hscript,
      State.perform_append_of_fails (State.effects_answers hp hscript) (by omega), if_neg hfirst]
    refine ⟨hlatched.trans (State.perform_hostFieldsKept hrun.keepsHostFields _), ?_⟩
    rw [hrun.perform_romIdx, hhead]
    rfl

/-! ### A failing SETUP -/

/-- SETUP's acts between its entry and RUN_INIT: `configure()`, the data/command pin, the reset pin (R191). -/
def setupPinActs (cfg : Config) : List Act :=
  [.tcall .cfg, .pinConfigure .dc, .pinWrite .dc false] ++ setupResetActs cfg

/-- SETUP's acts after its entry (R191). -/
def setupBodyActs (cfg : Config) (rom : List RomEntry) : List Act :=
  setupPinActs cfg ++ (runInitActs rom ++ (setupBacklightActs cfg ++ [.setReady true, .complete statusOk]))

/-- The state after SETUP's entry: READY and the sticky bits cleared (R191). -/
def State.enterSetup (s : State) : State := { s with ready := false }.clearSticky

theorem State.perform_setupActs_eq {s : State} (hp : s.pauses = []) (cfg : Config) (rom : List RomEntry) :
    State.perform (setupActs cfg rom) s = State.perform (setupBodyActs cfg rom) s.enterSetup := by
  have hacts : setupActs cfg rom = .setReady false :: .clearSticky :: setupBodyActs cfg rom := by
    simp [setupActs, setupBodyActs, setupPinActs]
  rw [hacts, State.perform_cons_of_done hp rfl, State.perform_cons_of_done (by exact hp) rfl]
  rfl

theorem romActs_keepsHostFields (rom : List RomEntry) : ∀ a ∈ romActs rom, a.keepsHostFields = true := by
  induction rom with
  | nil => simp [romActs]
  | cons e es ih =>
    rw [romActs, romEntryActs]
    exact List.forall_mem_append.mpr
      ⟨List.forall_mem_append.mpr ⟨(regWriteActs_wire e).keepsHostFields, by simp [Act.keepsHostFields]⟩, ih⟩

theorem setupBodyActs_keepsHostFields (cfg : Config) (rom : List RomEntry) :
    ∀ a ∈ setupBodyActs cfg rom, a.keepsHostFields = true := by
  have hreset : ∀ a ∈ setupResetActs cfg, a.keepsHostFields = true := by
    unfold setupResetActs
    cases cfg.hasRst <;> simp [hwResetPulseActs, Act.keepsHostFields]
  have hbacklight : ∀ a ∈ setupBacklightActs cfg, a.keepsHostFields = true := by
    unfold setupBacklightActs
    cases cfg.hasBl <;> simp [Act.keepsHostFields]
  have hrom : ∀ a ∈ runInitActs rom, a.keepsHostFields = true :=
    List.forall_mem_cons.mpr ⟨rfl, romActs_keepsHostFields rom⟩
  simp only [setupBodyActs, setupPinActs, List.forall_mem_append]
  exact ⟨⟨by simp [Act.keepsHostFields], hreset⟩, hrom, hbacklight, by simp [Act.keepsHostFields]⟩

/-- The calls of the entries before entry `j` and a call of its own are calls of the ROM. -/
theorem romCalls_take_add_lt {rom : List RomEntry} {j m : Nat} {e : RomEntry} (he : rom[j]? = some e)
    (hm : m < entryCalls e) : romCalls (rom.take j) + m < romCalls rom := by
  obtain ⟨hj, rfl⟩ := List.getElem?_eq_some_iff.mp he
  have hsplit : romCalls rom = romCalls (rom.take j) + (entryCalls rom[j] + romCalls (rom.drop (j + 1))) := by
    conv_lhs => rw [← List.take_append_drop j rom, List.drop_eq_getElem_cons hj]
    rw [romCalls, List.map_append, List.sum_append, List.map_cons, List.sum_cons]
    rfl
  omega

/-- When `configure()` fails RUN_INIT has not begun (R191, R213). -/
theorem State.romIdx_of_configure_fails {s : State} {later : List Answer} (hs : s.Answers 0 .fail later) (cfg : Config)
    (rom : List RomEntry) : (State.perform (setupBodyActs cfg rom) s).romIdx = s.romIdx := by
  obtain ⟨hp, hscript⟩ := hs
  have hfail := State.act_of_answer_fail .cfg (s := s) (by simp [Transport.answer, hscript])
  change (State.perform (.tcall .cfg :: _) s).romIdx = _
  rw [State.perform_cons_of_failed hp hfail]
  rfl

/-- A call of entry `j` comes after `configure()` and the entries before it; when it fails ROM_IDX stands at `j`. -/
theorem State.romIdx_of_setupBody_fails {s : State} {rom : List RomEntry} {j m : Nat} {e : RomEntry}
    {later : List Answer} (hlen : rom.length = s.cfg.romEntries) (he : rom[j]? = some e) (hm : m < entryCalls e)
    (hs : s.Answers (1 + romCalls (rom.take j) + m) .fail later) :
    (State.perform (setupBodyActs s.cfg rom) s).romIdx = j := by
  obtain ⟨hp, hscript⟩ := hs
  have hcalls : callCount ((setupPinActs s.cfg).flatMap Act.events) = 1 := by
    rw [setupPinActs, List.flatMap_append, callCount_append, (setupResetActs_offWire s.cfg).callCount]
    rfl
  have hcfg : (s.effects (setupPinActs s.cfg)).cfg = s.cfg :=
    (State.effects_emits hp (by simp [setupPinActs, setupResetActs_emitReport_notMem])).cfg
  rw [Nat.add_assoc, ← List.replicate_append_replicate, List.append_assoc, ← hcalls] at hscript
  have hanswers := State.effects_answers hp hscript
  have hrom : romCalls (rom.take j) + m < callCount ((runInitActs rom).flatMap Act.events) :=
    (romCalls_take_add_lt he hm).trans_eq (callCount_romActs rom).symm
  rw [setupBodyActs, State.perform_append_of_answered hp hscript, State.perform_append_of_fails hanswers hrom]
  exact romIdx_of_runInit_fails (hlen.trans (congrArg Config.romEntries hcfg.symm)) he hm hanswers

/-! ### The three operations that make calls -/

/-- What a failure at the call after `k` others leaves of NATIVE_RESULT, the sticky bits, ROM_IDX and the latches, for
each operation that makes calls (R213). -/
structure State.LeavesByOperation (s : State) (rom : List RomEntry) (i : Instr) (k : Nat) (t : State) : Prop where
  nativeResult : t.nativeResult = s.nativeResult
  setup : i = .setup → t.errIllegalOp = false ∧ t.warnNotReady = false ∧ t.latches.opc = 0x1 ∧
    t.nativeLatch = s.nativeLatch ∧ (k = 0 → t.romIdx = s.romIdx) ∧
    ∀ (j m : Nat) (e : RomEntry), rom[j]? = some e → m < entryCalls e → k = 1 + romCalls (rom.take j) + m →
      t.romIdx = j
  paint : i ≠ .setup → t.errIllegalOp = s.errIllegalOp ∧ t.warnNotReady = s.warnNotReady ∧ t.romIdx = s.romIdx
  fill : ∀ r g b, i = .fill r g b →
    t.latches.opc = 0x4 ∧ t.latches.cr = r ∧ t.latches.cg = g ∧ t.latches.cb = b ∧
    t.nativeLatch = if k < 25 then s.nativeLatch else toNative s.cfg.swapRb r g b
  pixel : ∀ x y r g b, i = .pixel x y r g b → t.latches = ⟨0x5, x, y, r, g, b⟩ ∧
    t.nativeLatch = if k < 25 then s.nativeLatch else toNative s.cfg.swapRb r g b

theorem setup_leavesByOperation {s : State} {rom : List RomEntry} {k : Nat} {later : List Answer}
    (h : initRom s.cfg = some rom) (hs : s.Answers k .fail later) :
    s.LeavesByOperation rom .setup k (State.perform (setupActs s.cfg rom) (s.accept (plainLatches 1))) := by
  have hkept := State.perform_hostFieldsKept (setupBodyActs_keepsHostFields s.cfg rom)
    (s.accept (plainLatches 1)).enterSetup
  rw [State.perform_setupActs_eq (by exact hs.1)]
  refine ⟨hkept.nativeResult, fun _ => ⟨hkept.errIllegalOp, hkept.warnNotReady, congrArg Latches.opc hkept.latches,
    hkept.nativeLatch, ?_, ?_⟩, fun hne => absurd rfl hne, nofun, nofun⟩
  · rintro rfl
    exact State.romIdx_of_configure_fails (s := (s.accept (plainLatches 1)).enterSetup) hs s.cfg rom
  · rintro j m e he hm rfl
    exact State.romIdx_of_setupBody_fails (s := (s.accept (plainLatches 1)).enterSetup)
      (length_of_initRom h) he hm hs

theorem lt_callCount_of_nthCall {k : Nat} {es : List Event} {c : TCall} (h : nthCall k es = some c) :
    k < callCount es := (List.getElem?_eq_some_iff.mp h).1

theorem fill_leavesByOperation {s : State} {k : Nat} {later : List Answer} {r g b : Byte} (rom : List RomEntry)
    (hs : s.Answers k .fail later)
    (hk : k < callCount ((paintActs s.cfg 0 0 239 239 fillCount r g b).flatMap Act.events)) :
    s.LeavesByOperation rom (.fill r g b) k
      (State.perform (paintActs s.cfg 0 0 239 239 fillCount r g b) (s.accept (colorLatches 4 r g b))) := by
  obtain ⟨hkept, hidx⟩ := State.perform_paintActs_of_fails (s := s.accept (colorLatches 4 r g b)) hs hk
  refine ⟨hkept.nativeResult, nofun, fun _ => ⟨hkept.errIllegalOp, hkept.warnNotReady, hidx⟩, ?_, nofun⟩
  rintro _ _ _ ⟨⟩
  exact ⟨congrArg Latches.opc hkept.latches, congrArg Latches.cr hkept.latches, congrArg Latches.cg hkept.latches,
    congrArg Latches.cb hkept.latches, hkept.nativeLatch⟩

theorem pixel_leavesByOperation {s : State} {k : Nat} {later : List Answer} {x y : Half} {r g b : Byte}
    (rom : List RomEntry) (hs : s.Answers k .fail later)
    (hk : k < callCount ((paintActs s.cfg x y x y 1 r g b).flatMap Act.events)) :
    s.LeavesByOperation rom (.pixel x y r g b) k
      (State.perform (paintActs s.cfg x y x y 1 r g b) (s.accept (pixelLatches x y r g b))) := by
  obtain ⟨hkept, hidx⟩ := State.perform_paintActs_of_fails (s := s.accept (pixelLatches x y r g b)) hs hk
  refine ⟨hkept.nativeResult, nofun, fun _ => ⟨hkept.errIllegalOp, hkept.warnNotReady, hidx⟩, nofun, ?_⟩
  rintro _ _ _ _ _ ⟨⟩
  exact ⟨hkept.latches, hkept.nativeLatch⟩

/-- Only SETUP, FILL and a PIXEL inside the panel have calls among their events. -/
theorem cases_of_operation_call {cfg : Config} {rom : List RomEntry} {i : Instr} {k : Nat} {c : TCall}
    (hc : nthCall k (operationEvents cfg rom i) = some c) :
    i = .setup ∨ (∃ r g b, i = .fill r g b) ∨ ∃ x y r g b, i = .pixel x y r g b ∧ inPanel x y = true := by
  cases i with
  | setup => exact .inl rfl
  | fill r g b => exact .inr (.inl ⟨r, g, b, rfl⟩)
  | pixel x y r g b =>
    refine .inr (.inr ⟨x, y, r, g, b, rfl, ?_⟩)
    by_contra hout
    simp [operationEvents, hout, nthCall] at hc
  | _ => simp [operationEvents, nthCall] at hc

theorem exec_of_failing_call {s : State} {rom : List RomEntry} {i : Instr} {k : Nat} {c : TCall} {later : List Answer}
    (ha : s.accepts = true) (h : initRom s.cfg = some rom) (hr : s.ready = true ∨ i = .setup)
    (hs : s.Answers k .fail later) (hc : nthCall k (operationEvents s.cfg rom i) = some c) :
    ∃ t, exec i s = .next t ∧ s.CompletesAborted (beforeCall k (operationEvents s.cfg rom i)) c later t ∧
      s.LeavesByOperation rom i k t := by
  rcases cases_of_operation_call hc with rfl | ⟨r, g, b, rfl⟩ | ⟨x, y, r, g, b, rfl, hin⟩
  · have hevents : (setupActs s.cfg rom).flatMap Act.events = operationEvents s.cfg rom .setup :=
      setupActs_events s.cfg rom
    rw [← hevents] at hc ⊢
    exact ⟨_, (exec_setup h).trans (State.operate_of_accepts ha _ _),
      State.accept_perform_completesAborted _ hs (setupActs_emitReport_notMem _ _) hc, setup_leavesByOperation h hs⟩
  · have hready : s.ready = true := hr.resolve_right nofun
    have hevents : (paintActs s.cfg 0 0 239 239 fillCount r g b).flatMap Act.events =
        operationEvents s.cfg rom (.fill r g b) := paintActs_events ..
    rw [← hevents] at hc ⊢
    rw [exec_fill, fillActs_of_ready hready, State.operate_of_accepts ha]
    exact ⟨_, rfl, State.accept_perform_completesAborted _ hs paintActs_emitReport_notMem hc,
      fill_leavesByOperation rom hs (lt_callCount_of_nthCall hc)⟩
  · have hready : s.ready = true := hr.resolve_right nofun
    have hevents : (paintActs s.cfg x y x y 1 r g b).flatMap Act.events =
        operationEvents s.cfg rom (.pixel x y r g b) :=
      (paintActs_events ..).trans (if_pos hin).symm
    rw [← hevents] at hc ⊢
    rw [exec_pixel, pixelActs_of_written hready hin, State.operate_of_accepts ha]
    exact ⟨_, rfl, State.accept_perform_completesAborted _ hs paintActs_emitReport_notMem hc,
      pixel_leavesByOperation rom hs (lt_callCount_of_nthCall hc)⟩

/-- Settles O14: the abort along the operation's events, and what each operation had written before its failing call. -/
theorem transportFailureAborts : Obligations.TransportFailureAborts := by
  intro s rom i k c later ha h hr hs hc
  obtain ⟨t, hexec, hab, hleft⟩ := exec_of_failing_call ha h hr hs hc
  obtain ⟨hcorrupt, hfault⟩ := s.observed_tFail (beforeCall k (operationEvents s.cfg rom i)) c
  rw [← hab.ghost] at hcorrupt hfault
  exact ⟨t, _, rfl, hexec, hab.trace, hab.script, hab.ready, hab.errTransport, hab.runCnt, hab.seq, hab.work,
    hab.opDone, hab.opStatus, hab.frameOpen, hleft.nativeResult, hab.dcLvl, (hab.pins .rst).1, (hab.pins .bl).1,
    (hab.pins .dc).2, (hab.pins .rst).2, (hab.pins .bl).2, hab.ghost, hcorrupt, hfault, hleft.setup, hleft.paint,
    hleft.fill, hleft.pixel⟩

end Sys2Proof.Machine
end

section
/-! PROOFS. Decoding inverts encoding (R80 to R100): the fields of an encoded descriptor and of an encoded unit are the
operands it was made of. -/

namespace Sys2Proof

/-! ### The fields of a descriptor -/

/-- A field of a descriptor, by its number (R80). -/
theorem extract_descriptorOf_eq {n : Nat} (k : Nat) (v : BitVec n) (opc : BitVec 4) (x y : Half) (r g b : Byte)
    (h : (opc.toNat * 2 ^ 60 + x.toNat * 2 ^ 40 + y.toNat * 2 ^ 24 + r.toNat * 2 ^ 16 + g.toNat * 2 ^ 8 + b.toNat)
      / 2 ^ k % 2 ^ n = v.toNat) : (descriptorOf opc x y r g b).extractLsb' k n = v := by
  apply BitVec.eq_of_toNat_eq
  rw [toNat_extract_eq, toNat_descriptorOf, h]

section
variable (opc : BitVec 4) (x y : Half) (r g b : Byte)

@[simp] theorem descOpc_descriptorOf : descOpc (descriptorOf opc x y r g b) = opc :=
  extract_descriptorOf_eq 60 opc _ _ _ _ _ _ (by omega)

@[simp] theorem descX_descriptorOf : descX (descriptorOf opc x y r g b) = x :=
  extract_descriptorOf_eq 40 x _ _ _ _ _ _ (by omega)

@[simp] theorem descY_descriptorOf : descY (descriptorOf opc x y r g b) = y :=
  extract_descriptorOf_eq 24 y _ _ _ _ _ _ (by omega)

@[simp] theorem descR_descriptorOf : descR (descriptorOf opc x y r g b) = r :=
  extract_descriptorOf_eq 16 r _ _ _ _ _ _ (by omega)

@[simp] theorem descG_descriptorOf : descG (descriptorOf opc x y r g b) = g :=
  extract_descriptorOf_eq 8 g _ _ _ _ _ _ (by omega)

@[simp] theorem descB_descriptorOf : descB (descriptorOf opc x y r g b) = b :=
  extract_descriptorOf_eq 0 b _ _ _ _ _ _ (by omega)

/-- RSV, PIXEL's must-be-0 field (R84). -/
@[simp] theorem rsv_descriptorOf : (descriptorOf opc x y r g b).extractLsb' 56 4 = 0#4 :=
  extract_descriptorOf_eq 56 0#4 _ _ _ _ _ _ (by simp; omega)

/-- FILL's and CONVERT's must-be-0 field (R84). -/
@[simp] theorem colorField_descriptorOf : (descriptorOf opc 0#16 0#16 r g b).extractLsb' 24 36 = 0#36 :=
  extract_descriptorOf_eq 24 0#36 _ _ _ _ _ _ (by simp; omega)

end

/-! ### A word of two parts: its upper and its lower part -/

@[simp] theorem extract_append_low {m n : Nat} (u : BitVec m) (v : BitVec n) : (u ++ v).extractLsb' 0 n = v := by
  apply BitVec.eq_of_toNat_eq
  rw [toNat_extract_eq, toNat_append_eq, pow_zero, Nat.div_one, Nat.mul_comm, Nat.mul_add_mod, Nat.mod_eq_of_lt v.isLt]

theorem descOpc_append (opc : BitVec 4) (rest : BitVec 60) : descOpc (opc ++ rest) = opc := by
  apply BitVec.eq_of_toNat_eq
  rw [descOpc, toNat_extract_eq, toNat_append_eq]
  omega

theorem decodeDescriptor_opc0 (rest : BitVec 60) : decodeDescriptor (0x0#4 ++ rest) = .ok (.illegalOpc0 rest) := by
  rw [decodeDescriptor, descOpc_append, extract_append_low]
  rfl

theorem decodeDescriptor_opc7 (rest : BitVec 60) : decodeDescriptor (0x7#4 ++ rest) = .ok (.illegalOpc7 rest) := by
  rw [decodeDescriptor, descOpc_append, extract_append_low]
  rfl

/-- OPC 0x8 to 0xF is the upper bit (R80). -/
theorem decodeDescriptor_opc8F (rest : BitVec 63) : decodeDescriptor (1#1 ++ rest) = .ok (.illegalOpc8F rest) := by
  have hopc : 8 ≤ (descOpc (1#1 ++ rest)).toNat := by
    rw [descOpc, toNat_extract_eq, toNat_append_eq, BitVec.toNat_ofNat]
    omega
  unfold decodeDescriptor
  split
  case h_9 => rw [extract_append_low]
  all_goals omega

/-! ### Units (R86) -/

theorem decodeUnit_commandUnit (codes : CmdCodes) (b : Byte) :
    decodeUnit codes (commandUnit b) = decodeCommand codes b := by
  rw [decodeUnit, commandUnit, extract_append_low, BitVec.getLsbD_append]
  rfl

theorem decodeUnit_dataUnit (codes : CmdCodes) (b : Byte) : decodeUnit codes (dataUnit b) = .wireData b := by
  rw [decodeUnit, dataUnit, extract_append_low, BitVec.getLsbD_append]
  rfl

/-- The named commands with their codes, in the decoder's order (R88 to R97). -/
def CmdCodes.named (codes : CmdCodes) : List (Byte × Instr) :=
  codes.all.zip [.swreset, .slpout, .noron, .invon, .dispon, .caset, .raset, .ramwr, .madctl, .colmod]

/-- Under distinct codes each code is read back as its command: no earlier code is the same byte. -/
theorem decodeCommand_named {codes : CmdCodes} (hd : codes.Distinct) :
    ∀ p ∈ codes.named, decodeCommand codes p.1 = p.2 := by
  -- Reversed, the list says of each code that it differs from those the decoder compares before it.
  have hback : codes.all.reverse.Nodup := List.nodup_reverse.mpr hd
  simp only [CmdCodes.all, List.reverse_cons, List.reverse_nil, List.nil_append, List.cons_append, List.nodup_cons,
    List.mem_cons, not_or] at hback
  simp [CmdCodes.named, CmdCodes.all, decodeCommand, hback]

theorem decodeCommand_tuning {codes : CmdCodes} {b : Byte} (h : b ∉ codes.all) :
    decodeCommand codes b = .tuningCommand b := by
  simp only [CmdCodes.all, List.mem_cons, not_or] at h
  simp [decodeCommand, h]

theorem decode_commandUnit_named {codes : CmdCodes} (hd : codes.Distinct) {b : Byte} {i : Instr}
    (h : (b, i) ∈ codes.named) : decode codes (.unit (commandUnit b)) = .ok i := by
  rw [decode, decodeUnit_commandUnit, decodeCommand_named hd _ h]

/-! ### The instructions -/

theorem decodeRomRecord_encodeRomEntry {e : RomEntry} (h : e.wellFormed = true) :
    decodeRomRecord (encodeRomEntry e) = .ok (.romEntry e) := by
  have hread := decodeRomEntry_encodeRomEntry_append h []
  rw [List.append_nil] at hread
  rw [decodeRomRecord, hread]

/-- Settles O2: each encoding is read back by the fields of its row. -/
theorem decodeInvertsEncode : Obligations.DecodeInvertsEncode := by
  intro codes i c hd hwf henc
  cases i with
  | setup | update | dumpConfig => cases henc; rfl
  | fill r g b | convert r g b => cases henc; simp [decode, decodeDescriptor, unlessReserved]
  | pixel x y r g b => cases henc; simp [decode, decodeDescriptor, unlessReserved]
  | illegalOpc0 rest => cases henc; exact decodeDescriptor_opc0 rest
  | illegalOpc7 rest => cases henc; exact decodeDescriptor_opc7 rest
  | illegalOpc8F rest => cases henc; exact decodeDescriptor_opc8F rest
  | read a => cases henc; rfl
  | sendCommand _ | sendData _ | sendData16 _ | sendColorRun _ _ | setAddressWindow _ _ _ _ | regWrite _ | runInit
  | hwResetPulse | toNative _ _ _ => cases henc
  | romEntry e => cases henc; exact decodeRomRecord_encodeRomEntry hwf
  | swreset | slpout | noron | invon | dispon | caset | raset | ramwr | madctl | colmod =>
    cases henc
    exact decode_commandUnit_named hd (by simp [CmdCodes.named, CmdCodes.all])
  | tuningCommand b =>
    cases henc
    have hb : b ∉ codes.all := by simpa [Instr.wellFormed] using hwf
    rw [decode, decodeUnit_commandUnit, decodeCommand_tuning hb]
  | wireData d => cases henc; rw [decode, decodeUnit_dataUnit]

/-- Settles O1: the words are numerals, which the decoder evaluates. -/
theorem specWordsDecode : Obligations.SpecWordsDecode := by
  unfold Obligations.SpecWordsDecode
  decide

end Sys2Proof
end

section
/-! PROOFS. The ROM (R100, R102, R131, R132): images that are rejected, the content checks one by one, and the reference
composition, which meets them. -/

namespace Sys2Proof

/-! ### Rejected images -/

/-- Past well-formed entries the image is rejected for what follows them. -/
theorem decodeRom_encodeRom_append_rejected {rom : List RomEntry} (hwf : ∀ e ∈ rom, e.wellFormed = true) {m : Nat}
    {bytes : List Byte} {r : Reject} (h : decodeRom m bytes = .rejected r) :
    decodeRom (rom.length + m) (encodeRom rom ++ bytes) = .rejected r := by
  induction rom with
  | nil => simpa [encodeRom] using h
  | cons e es ih =>
    obtain ⟨he, hes⟩ := List.forall_mem_cons.mp hwf
    rw [List.length_cons, Nat.add_right_comm, encodeRom, List.append_assoc, decodeRom,
      decodeRomEntry_encodeRomEntry_append he]
    simp only [ih hes]

theorem decodeRom_of_entry_rejected {n : Nat} {bytes : List Byte} {r : Reject}
    (h : decodeRomEntry bytes = .rejected r) : decodeRom (n + 1) bytes = .rejected r := by
  rw [decodeRom, h]

/-- R99, R102: CTL[6:4] is reserved. -/
theorem decodeRomEntry_of_reservedCtl {ctl : Byte} (h : ctl.extractLsb' 4 3 ≠ 0) (cmd : Byte) (rest : List Byte) :
    decodeRomEntry (cmd :: ctl :: rest) = .rejected .romReservedCtl := if_pos h

/-- What the decoder makes of a header and whatever bytes come after it (R99, R102). -/
theorem decodeRomEntry_header {e : RomEntry} (h : e.data.length ≤ 15) (bytes : List Byte) :
    decodeRomEntry (e.cmd :: ctlByte e :: bytes) =
      if bytes.length < e.data.length then .rejected .romTruncated
      else if e.delay.isSome then decodeDelay e.cmd (bytes.take e.data.length) (bytes.drop e.data.length)
      else .ok (⟨e.cmd, bytes.take e.data.length, none⟩, bytes.drop e.data.length) := by
  rw [decodeRomEntry, if_neg (by simp), ctlCount_ctlByte h, ctlDelay_ctlByte]

/-- The CTL byte of a delay with this much data, whatever the delay. -/
theorem ctlByte_of_delay (cmd : Byte) {data : List Byte} (h : data.length ≤ 15) (d : Half) :
    ctlByte ⟨cmd, data, some d⟩ = 0x80#8 + BitVec.ofNat 8 data.length := by
  apply BitVec.eq_of_toNat_eq
  rw [toNat_ctlByte, BitVec.toNat_add, BitVec.toNat_ofNat, BitVec.toNat_ofNat]
  simp only [Option.isSome_some, if_true]
  omega

theorem decodeRomEntry_of_zeroDelay (cmd : Byte) {data : List Byte} (h : data.length ≤ 15) (rest : List Byte) :
    decodeRomEntry (cmd :: (0x80#8 + BitVec.ofNat 8 data.length) :: (data ++ 0x00 :: 0x00 :: rest)) =
      .rejected .romZeroDelay := by
  rw [← ctlByte_of_delay cmd h 0]
  refine (decodeRomEntry_header (e := ⟨cmd, data, some 0⟩) h _).trans ?_
  simp [decodeDelay, joinBytes]

/-- R102: the record ends inside its header, inside its data, or inside its delay. -/
theorem decodeRomEntry_of_truncated {e : RomEntry} (h : e.wellFormed = true) {k : Nat}
    (hk : k < (encodeRomEntry e).length) : decodeRomEntry ((encodeRomEntry e).take k) = .rejected .romTruncated := by
  obtain ⟨hlen, -⟩ := RomEntry.wellFormed_iff.mp h
  match k with
  | 0 | 1 => rfl
  | k + 2 =>
    simp only [encodeRomEntry, List.cons_append, List.take_succ_cons, decodeRomEntry_header hlen]
    by_cases hdata : k < e.data.length
    · rw [if_pos (by simp [hdata])]
    · obtain ⟨j, rfl⟩ := Nat.exists_eq_add_of_le (Nat.le_of_not_lt hdata)
      cases hd : e.delay with
      | none => simp [encodeRomEntry, hd] at hk
      | some d =>
        have hj : j = 0 ∨ j = 1 := by simp [encodeRomEntry, hd] at hk; omega
        rcases hj with rfl | rfl <;> simp [decodeDelay, List.take_add]

/-- Settles O6: each reason is found in the first record that is not well-formed, or after the last one. -/
theorem illFormedImagesRejected : Obligations.IllFormedImagesRejected := by
  intro rom hwf
  refine ⟨fun n cmd ctl rest hctl => ?_, fun n cmd data rest hlen => ?_, fun n e k he hk => ?_, fun b rest => ?_⟩
  · exact decodeRom_encodeRom_append_rejected hwf
      (decodeRom_of_entry_rejected (decodeRomEntry_of_reservedCtl hctl cmd rest))
  · exact decodeRom_encodeRom_append_rejected hwf
      (decodeRom_of_entry_rejected (decodeRomEntry_of_zeroDelay cmd hlen rest))
  · exact decodeRom_encodeRom_append_rejected hwf (decodeRom_of_entry_rejected (decodeRomEntry_of_truncated he hk))
  · exact decodeRom_encodeRom_append_rejected (m := 0) hwf rfl

end Sys2Proof

namespace Sys2Proof.Machine

/-! ### The content checks -/

/-- R132 (a), (b), (e), (f). -/
theorem romHasSettled_iff (cmd : Byte) (ms : Nat) (rom : List RomEntry) :
    romHasSettled cmd ms rom = true ↔ ∃ d : Half, ms ≤ d.toNat ∧ ⟨cmd, [], some d⟩ ∈ rom := by
  rw [romHasSettled, List.any_eq_true]
  constructor
  · rintro ⟨⟨c, data, delay⟩, hmem, h⟩
    cases delay with
    | none => simp at h
    | some d =>
      obtain ⟨⟨rfl, rfl⟩, hd⟩ : (c = cmd ∧ data = []) ∧ ms ≤ d.toNat := by simpa using h
      exact ⟨d, hd, hmem⟩
  · rintro ⟨d, hd, hmem⟩
    exact ⟨_, hmem, by simpa using hd⟩

/-- R132 (c), (d). -/
theorem romWritesOnly_iff (cmd v : Byte) (rom : List RomEntry) :
    romWritesOnly cmd v rom = true ↔
      (∃ dl, ⟨cmd, [v], dl⟩ ∈ rom) ∧ ∀ e ∈ rom, e.cmd = cmd → e.data = [v] := by
  have hall : ∀ e : RomEntry, (e.cmd != cmd || e.data == [v]) = true ↔ (e.cmd = cmd → e.data = [v]) := by
    intro e
    by_cases he : e.cmd = cmd <;> simp [he]
  rw [romWritesOnly, Bool.and_eq_true, List.any_eq_true, List.all_eq_true]
  simp only [hall]
  refine and_congr_left fun _ => ⟨?_, fun ⟨dl, hmem⟩ => ⟨_, hmem, by simp⟩⟩
  rintro ⟨⟨c, data, delay⟩, hmem, h⟩
  obtain ⟨rfl, rfl⟩ : c = cmd ∧ data = [v] := by simpa using h
  exact ⟨delay, hmem⟩

/-- R132 (g). -/
theorem wellFormed_iff_bounds (e : RomEntry) : e.wellFormed = true ↔
    e.data.length ≤ 15 ∧ ∀ d, e.delay = some d → 1 ≤ d.toNat ∧ d.toNat ≤ 65535 := by
  rw [RomEntry.wellFormed_iff]
  refine and_congr_right fun _ => ⟨fun h d hd => ?_, fun h hd => absurd (h 0 hd).1 (by decide)⟩
  have hne : d.toNat ≠ 0 := fun h0 => h (hd.trans (congrArg some (BitVec.eq_of_toNat_eq h0)))
  exact ⟨Nat.one_le_iff_ne_zero.mpr hne, Nat.le_of_lt_succ d.isLt⟩

theorem initRom_iff (cfg : Config) (rom : List RomEntry) : initRom cfg = some rom ↔
    decodeRom cfg.romEntries cfg.romImage = .ok rom ∧ romContentOk cfg.codes cfg.swapRb rom = true := by
  refine ⟨initRom_eq_some, fun ⟨hdec, hok⟩ => ?_⟩
  simp [initRom, hdec, hok]

/-- Settles O10: the content checks by one equivalence each; where there is no ROM everything is refused. -/
theorem inadmissibleRomRefused : Obligations.InadmissibleRomRefused := by
  refine ⟨fun cfg rom => ?_, fun s hnone => ?_⟩
  · rw [initRom_iff, romContentOk]
    simp only [Bool.and_eq_true, romHasSettled_iff, romWritesOnly_iff, List.all_eq_true, wellFormed_iff_bounds,
      and_assoc]
    rfl
  · have hinit : initRom s.cfg = none := Option.eq_none_iff_forall_ne_some.mpr hnone
    refine ⟨?_, ?_, ?_⟩
    · simp [step, State.fetch, romAdmissible, hinit]
    · change execSetup s = _
      simp [execSetup, hinit]
    · change execRunInit s = _
      simp [execRunInit, hinit]

/-! ### The reference composition -/

/-- A command of the first five codes, which take no parameters, is none of the other five. -/
theorem CmdCodes.ne_of_lone {codes : CmdCodes} (hd : codes.Distinct) {c c' : Byte}
    (hc : c ∈ [codes.swreset, codes.slpout, codes.noron, codes.invon, codes.dispon])
    (hc' : c' ∈ [codes.caset, codes.raset, codes.ramwr, codes.madctl, codes.colmod]) : c ≠ c' :=
  fun h => List.disjoint_of_nodup_append hd hc (h ▸ hc')

theorem CmdCodes.madctl_ne_colmod {codes : CmdCodes} (hd : codes.Distinct) : codes.madctl ≠ codes.colmod := by
  intro h
  simp [CmdCodes.Distinct, CmdCodes.all, h] at hd

/-- What holds of each of the seven entries and of the tuning table holds of the composition (R131). -/
theorem forall_mem_referenceRom {P : RomEntry → Prop} {codes : CmdCodes} {swapRb : Bool} {t : SettleTimes}
    {tuning : List RomEntry} :
    (∀ e ∈ referenceRom codes swapRb t tuning, P e) ↔
      (P ⟨codes.swreset, [], some t.swreset⟩ ∧ P ⟨codes.slpout, [], some t.slpout⟩ ∧
        P ⟨codes.colmod, [colmodData], none⟩ ∧ P ⟨codes.madctl, [madctlData swapRb], none⟩) ∧ (∀ e ∈ tuning, P e) ∧
      P ⟨codes.invon, [], some t.invon⟩ ∧ P ⟨codes.noron, [], some t.noron⟩ ∧ P ⟨codes.dispon, [], some t.dispon⟩ := by
  simp only [referenceRom, List.forall_mem_append, List.forall_mem_cons, List.not_mem_nil, false_imp_iff, implies_true,
    and_true, and_assoc]

section
variable {codes : CmdCodes} {swapRb : Bool} {t : SettleTimes} {tuning : List RomEntry}

theorem wellFormed_of_settled (c : Byte) {d : Half} (h : 10 ≤ d.toNat) :
    RomEntry.wellFormed ⟨c, [], some d⟩ = true := by
  rw [RomEntry.wellFormed_iff]
  refine ⟨Nat.zero_le 15, ?_⟩
  rintro ⟨⟩
  simp at h

theorem referenceRom_wellFormed (hswreset : 120 ≤ t.swreset.toNat) (hslpout : 120 ≤ t.slpout.toNat)
    (hinvon : 10 ≤ t.invon.toNat) (hnoron : 10 ≤ t.noron.toNat) (hdispon : 120 ≤ t.dispon.toNat)
    (htuning : ∀ e ∈ tuning, e.wellFormed = true) :
    ∀ e ∈ referenceRom codes swapRb t tuning, e.wellFormed = true :=
  forall_mem_referenceRom.mpr
    ⟨⟨wellFormed_of_settled _ (by omega), wellFormed_of_settled _ (by omega), rfl, rfl⟩, htuning,
      wellFormed_of_settled _ hinvon, wellFormed_of_settled _ hnoron, wellFormed_of_settled _ (by omega)⟩

theorem referenceRom_contentOk (hd : codes.Distinct) (hswreset : 120 ≤ t.swreset.toNat)
    (hslpout : 120 ≤ t.slpout.toNat) (hinvon : 10 ≤ t.invon.toNat) (hnoron : 10 ≤ t.noron.toNat)
    (hdispon : 120 ≤ t.dispon.toNat)
    (htuning : ∀ e ∈ tuning, e.wellFormed = true ∧ e.cmd ≠ codes.colmod ∧ e.cmd ≠ codes.madctl) :
    romContentOk codes swapRb (referenceRom codes swapRb t tuning) = true := by
  have hlone : ∀ c ∈ [codes.swreset, codes.slpout, codes.noron, codes.invon, codes.dispon],
      c ≠ codes.colmod ∧ c ≠ codes.madctl := fun c hc =>
    ⟨CmdCodes.ne_of_lone hd hc (by simp), CmdCodes.ne_of_lone hd hc (by simp)⟩
  simp only [List.forall_mem_cons] at hlone
  obtain ⟨hsw, hsl, hno, hin, hdi, -⟩ := hlone
  have hmc := CmdCodes.madctl_ne_colmod hd
  have hwf := referenceRom_wellFormed (codes := codes) (swapRb := swapRb) hswreset hslpout hinvon hnoron hdispon
    fun e he => (htuning e he).1
  -- Each lone entry is in the list; no entry but its own has the code of COLMOD or of MADCTL.
  have hcolmod : ∀ e ∈ referenceRom codes swapRb t tuning, e.cmd = codes.colmod → e.data = [colmodData] :=
    forall_mem_referenceRom.mpr
      ⟨⟨(absurd · hsw.1), (absurd · hsl.1), fun _ => rfl, (absurd · hmc)⟩,
        fun e he => (absurd · (htuning e he).2.1), (absurd · hin.1), (absurd · hno.1), (absurd · hdi.1)⟩
  have hmadctl : ∀ e ∈ referenceRom codes swapRb t tuning, e.cmd = codes.madctl → e.data = [madctlData swapRb] :=
    forall_mem_referenceRom.mpr
      ⟨⟨(absurd · hsw.2), (absurd · hsl.2), (absurd · hmc.symm), fun _ => rfl⟩,
        fun e he => (absurd · (htuning e he).2.2), (absurd · hin.2), (absurd · hno.2), (absurd · hdi.2)⟩
  simp only [romContentOk, Bool.and_eq_true, romHasSettled_iff, romWritesOnly_iff, List.all_eq_true]
  exact ⟨⟨⟨⟨⟨⟨⟨⟨t.swreset, hswreset, by simp [referenceRom]⟩, ⟨t.slpout, hslpout, by simp [referenceRom]⟩⟩,
    ⟨none, by simp [referenceRom]⟩, hcolmod⟩, ⟨none, by simp [referenceRom]⟩, hmadctl⟩,
    ⟨t.invon, hinvon, by simp [referenceRom]⟩⟩, ⟨t.noron, hnoron, by simp [referenceRom]⟩⟩,
    ⟨t.dispon, hdispon, by simp [referenceRom]⟩⟩, hwf⟩

end

/-- Settles O7: the checks hold of the list, and its image is read back. -/
theorem referenceCompositionAdmissible : Obligations.ReferenceCompositionAdmissible := by
  intro codes swapRb t tuning hd hswreset hslpout hinvon hnoron hdispon htuning
  have hok := referenceRom_contentOk (swapRb := swapRb) hd hswreset hslpout hinvon hnoron hdispon htuning
  refine ⟨hok, ?_⟩
  rintro cfg rfl rfl himage hentries
  have hread := romImageReadsBack _ (referenceRom_wellFormed (codes := cfg.codes) (swapRb := cfg.swapRb) hswreset hslpout
    hinvon hnoron hdispon fun e he => (htuning e he).1)
  have hlen : (referenceRom cfg.codes cfg.swapRb t tuning).length = tuning.length + 7 := by
    simp [referenceRom]
  refine (initRom_iff cfg _).mpr ⟨?_, hok⟩
  rw [himage, hentries, ← hlen]
  exact hread

end Sys2Proof.Machine
end

section
/-! PROOFS. State predicates that every act, abort and reset keeps: every step keeps them (R23, R32, R60, R219). -/

namespace Sys2Proof.Machine

/-- `t` differs from `s` at most in what acceptance, a turn of the outside, a register read or a wait can change: no
block field but SEQ and the latches, no event, no ghost state. -/
def State.SameRecords (s t : State) : Prop :=
  t = { s with
    seq := t.seq, work := t.work, held := t.held, latches := t.latches, opDone := t.opDone, regRdata := t.regRdata,
    inputs := t.inputs, transport := t.transport, pauses := t.pauses }

/-- A predicate kept by whatever a step is made of. -/
structure Kept (P : State → Prop) : Prop where
  effect (a : Act) {s : State} : P s → P (s.effect a)
  abort (c : TCall) {s : State} : P s → P (s.failCall c).abortTransport
  reset (l : Bool) {s : State} : P s → P (s.driveReset l)
  sameRecords {s t : State} : s.SameRecords t → P s → P t

section
variable {P : State → Prop} {s t : State}

theorem Kept.perform (hP : Kept P) (as : List Act) (hs : P s) : P (State.perform as s) :=
  State.perform_keeps hs (fun a _ _ => hP.effect a) (fun c _ => hP.abort c) fun _ _ _ _ _ => hP.sameRecords rfl

theorem Kept.begins (hP : Kept P) (h : s.Begins t) (hs : P s) : P t := by
  cases h with
  | micro => exact hs
  | accepted l _ => exact hP.sameRecords rfl hs
  | rejected _ => exact hP.sameRecords rfl hs

theorem Kept.exec (hP : Kept P) {i : Instr} (hs : P s) (h : exec i s = .next t) : P t := by
  rcases exec_cases h with rfl | ⟨a, -, rfl⟩ | ⟨s', hb, rfl⟩
  · exact hs
  · exact hP.sameRecords rfl hs
  · exact hP.perform _ (hP.begins hb hs)

theorem Kept.step (hP : Kept P) (hs : P s) (h : step s = .next t) : P t := by
  have htaken : ∀ ins, P { s with opDone := false, inputs := ins } := fun _ => hP.sameRecords rfl hs
  rcases step_cases h with ⟨l, rest, -, rfl⟩ | ⟨a, rest, -, hex⟩ | ⟨c, i, rest, -, -, -, hex⟩ |
    ⟨w, r, rest, -, -, -, hrej⟩ | ⟨ins, -, -, -, -, rfl⟩ | ⟨ins, -, rfl⟩
  · exact hP.reset l (htaken rest)
  · exact hP.exec (htaken rest) hex
  · exact hP.exec (htaken rest) hex
  · -- A rejection has the effect of an unused OPC.
    exact hP.exec (i := .illegalOpc0 0) (htaken rest) hrej
  · exact hP.perform _ (hP.sameRecords rfl (htaken ins))
  · exact htaken ins

end

/-! ### The configuration (R32, R72) -/

@[simp] theorem State.effect_cfg (a : Act) (s : State) : (s.effect a).cfg = s.cfg := by
  cases a <;> simp [State.effect, State.pinConfigure, State.pinWrite]

theorem kept_cfg (cfg : Config) : Kept fun s => s.cfg = cfg where
  effect a _ h := (State.effect_cfg a _).trans h
  abort _ _ h := h
  reset l s h := by
    rcases s.driveReset_cases l with ⟨-, hl⟩ | ⟨-, -, hl⟩ | ⟨-, -, hl⟩ <;> rw [hl] <;> exact h
  sameRecords h hs := by rw [h]; exact hs

/-- Settles O58: no act, abort or reset writes the configuration. -/
theorem configurationNeverWritten : Obligations.ConfigurationNeverWritten :=
  ⟨fun _ s _ h => (kept_cfg s.cfg).exec rfl h, fun s _ h => (kept_cfg s.cfg).step rfl h⟩

/-! ### ROM_IDX (R23) -/

theorem kept_romIdx : Kept fun s => s.romIdx ≤ s.cfg.romEntries where
  effect a s h := by
    cases a with
    | romStart => exact Nat.zero_le _
    | romNext => exact Nat.min_le_right _ _
    | _ => simpa [State.effect, State.pinConfigure, State.pinWrite] using h
  abort _ _ h := h
  reset l s h := by
    rcases s.driveReset_cases l with ⟨-, hl⟩ | ⟨-, -, hl⟩ | ⟨-, -, hl⟩ <;> rw [hl]
    · exact h
    · exact Nat.zero_le _
    · exact Nat.zero_le _
  sameRecords h hs := by rw [h]; exact hs

/-- Settles O57: ROM_IDX is cleared, clamped, or left alone. -/
theorem stepKeepsRomIndexInRange : Obligations.StepKeepsRomIndexInRange := fun _ _ hs h => kept_romIdx.step hs h

/-! ### What an act does to the observation -/

/-- An act presents at most one event to the panel. -/
theorem State.effect_ghost_cases (a : Act) (s : State) :
    (s.effect a).ghost = s.ghost ∨ ∃ e, (s.effect a).ghost = s.ghost.observe s.cfg.codes s.dcLvl e := by
  cases a with
  | pinConfigure p => exact .inr ⟨.pinCfg p, by simp [State.effect, State.pinConfigure]⟩
  | pinWrite p l => exact .inr ⟨.pin p l, by simp [State.effect, State.pinWrite]⟩
  | tcall c => exact .inr ⟨c.event, rfl⟩
  | wait k ms => exact .inr ⟨.wait k ms, rfl⟩
  | emitWarn => exact .inr ⟨.warn .notReady, rfl⟩
  | emitReport => exact .inr ⟨.report s.snapshot, rfl⟩
  | _ => exact .inl rfl

/-- What a change of `rst_n` does to the observation (R242). -/
theorem State.driveReset_ghost_cases (l : Bool) (s : State) :
    (s.driveReset l).ghost = s.ghost ∨ (s.driveReset l).ghost = s.ghost.corrupt.addFault .abortedByReset := by
  by_cases hl : s.rstN = l
  · exact .inl (by rcases s.driveReset_cases l with h | h | h <;> simp_all)
  · rw [State.driveReset_of_change hl]
    by_cases hcut : l = false ∧ s.inProgress = true <;> simp [State.ghostAfterReset, hcut]

/-- A predicate of the observation that no event and no reset breaks. -/
theorem kept_ghost {P : CmdCodes → Ghost → Prop}
    (hobs : ∀ codes dc e g, P codes g → P codes (g.observe codes dc e))
    (hcut : ∀ codes g, P codes g → P codes (g.corrupt.addFault .abortedByReset)) :
    Kept fun s => P s.cfg.codes s.ghost where
  effect a s h := by
    rw [State.effect_cfg]
    rcases s.effect_ghost_cases a with hg | ⟨e, hg⟩ <;> rw [hg]
    · exact h
    · exact hobs _ _ _ _ h
  abort c s h := hobs _ s.dcLvl (.tFail c) _ h
  reset l s h := by
    rw [(kept_cfg s.cfg).reset l rfl]
    rcases s.driveReset_ghost_cases l with hg | hg <;> rw [hg]
    · exact h
    · exact hcut _ _ h
  sameRecords h hs := by rw [h]; exact hs

/-- Settles O53: every event keeps the observation sound, and soundness reads neither status nor faults. -/
theorem stepKeepsDisplaySound : Obligations.StepKeepsDisplaySound := fun _ _ hs h =>
  (kept_ghost (P := Ghost.Sound) (fun _ dc e _ => Ghost.observe_sound dc e)
    fun _ _ h => h.of_eq rfl rfl rfl rfl rfl rfl).step hs h

/-! ### Records only grow (R9, R219) -/

theorem kept_faults (g₀ : Ghost) : Kept fun s => g₀.FaultsKept s.ghost :=
  kept_ghost (P := fun _ g => g₀.FaultsKept g) (fun codes dc e g h => h.trans (Ghost.observe_faultsKept codes dc e g))
    fun _ _ h => Ghost.FaultsKept.addFault (g' := Ghost.corrupt _) h _

theorem kept_trace (es : List Event) : Kept fun s => es <+: s.trace where
  effect a s h := by
    obtain ⟨evs, htrace, -⟩ := s.effect_framing a
    exact h.trans ⟨evs, htrace.symm⟩
  abort c _ h := h.trans ⟨[.tFail c], rfl⟩
  reset l s h := by
    rcases s.driveReset_cases l with ⟨-, hl⟩ | ⟨-, -, hl⟩ | ⟨-, -, hl⟩ <;> rw [hl] <;> exact h
  sameRecords h hs := by rw [h]; exact hs

/-- Settles O59. -/
theorem recordsOnlyGrow : Obligations.RecordsOnlyGrow := by
  intro s t h
  obtain ⟨evs, htrace⟩ := (kept_trace s.trace).step List.prefix_rfl h
  exact ⟨(kept_faults s.ghost).step (.refl _) h, evs, htrace.symm⟩

end Sys2Proof.Machine
end

section
/-! PROOFS. What the acts of an instruction are, and the invariants that speak of the acts still to do (R24, R31). -/

namespace Sys2Proof.Machine

/-! ### Which acts belong to which instruction -/

/-- The rules' condition on an instruction for act `a` to be among its acts: the strap of an optional pin (R31, R138,
R191), and the one instruction that writes a flag or NATIVE_RESULT (R45, R185, R191, R192, R214). -/
def Act.BelongsTo (s : State) (i : Instr) : Act → Prop
  | .pinConfigure .rst | .pinWrite .rst _ => s.cfg.hasRst = true
  | .pinConfigure .bl | .pinWrite .bl _ => s.cfg.hasBl = true
  | .setReady _ | .clearSticky => i = .setup
  | .setIllegalOp => (∃ u, i = .illegalOpc0 u ∨ i = .illegalOpc7 u) ∨ ∃ v, i = .illegalOpc8F v
  | .setWarn => i = .update ∧ s.ready = false
  | .storeNative => ∃ r g b, i = .convert r g b
  | _ => True

section
variable {s : State} {i : Instr}

theorem WireActs.belong {as : List Act} (h : WireActs as) : ∀ a ∈ as, a.BelongsTo s i := by
  induction h with
  | nil => simp
  | dc _ _ ih | call _ _ ih | wait _ _ _ ih | runLoad _ _ ih | runNext _ ih =>
    exact List.forall_mem_cons.mpr ⟨trivial, ih⟩

theorem runInitActs_belong (rom : List RomEntry) : ∀ a ∈ runInitActs rom, a.BelongsTo s i := by
  have hrom : ∀ a ∈ romActs rom, a.BelongsTo s i := by
    induction rom with
    | nil => simp [romActs]
    | cons e es ih =>
      simp only [romActs, romEntryActs, List.forall_mem_append]
      exact ⟨⟨(regWriteActs_wire e).belong, by simp [Act.BelongsTo]⟩, ih⟩
  exact List.forall_mem_cons.mpr ⟨trivial, hrom⟩

theorem hwResetPulseActs_belong (hrst : s.cfg.hasRst = true) :
    ∀ a ∈ hwResetPulseActs s.cfg, a.BelongsTo s i := by
  simp [hwResetPulseActs, Act.BelongsTo, hrst]

theorem setupActs_belong (rom : List RomEntry) : ∀ a ∈ setupActs s.cfg rom, a.BelongsTo s .setup := by
  have hreset : ∀ a ∈ setupResetActs s.cfg, a.BelongsTo s .setup := by
    unfold setupResetActs
    split
    · next hrst => simp [hwResetPulseActs, Act.BelongsTo, hrst]
    · simp
  have hbacklight : ∀ a ∈ setupBacklightActs s.cfg, a.BelongsTo s .setup := by
    unfold setupBacklightActs
    split
    · next hbl => simp [Act.BelongsTo, hbl]
    · simp
  simp only [setupActs, List.forall_mem_append]
  exact ⟨by simp [Act.BelongsTo], hreset, runInitActs_belong rom, hbacklight, by simp [Act.BelongsTo]⟩

theorem paintActs_belong {cfg : Config} {x₁ y₁ x₂ y₂ : Half} {n : BitVec 32} {r g b : Byte} :
    ∀ a ∈ paintActs cfg x₁ y₁ x₂ y₂ n r g b, a.BelongsTo s i := by
  simp only [paintActs, List.forall_mem_append]
  exact ⟨(setAddressWindowActs_wire _ _ _ _ _).belong, by simp [Act.BelongsTo], (sendColorRunActs_wire _ _).belong,
    by simp [Act.BelongsTo]⟩

theorem complete_belongs (status : BitVec 4) : ∀ a ∈ [Act.complete status], a.BelongsTo s i := by
  simp [Act.BelongsTo]

theorem fillActs_belong (r g b : Byte) : ∀ a ∈ fillActs s r g b, a.BelongsTo s i := by
  unfold fillActs
  split
  · exact complete_belongs _
  · exact paintActs_belong

theorem pixelActs_belong (x y : Half) (r g b : Byte) : ∀ a ∈ pixelActs s x y r g b, a.BelongsTo s i := by
  unfold pixelActs
  split
  · exact complete_belongs _
  · split
    · exact complete_belongs _
    · exact paintActs_belong

theorem updateActs_belong : ∀ a ∈ updateActs s, a.BelongsTo s .update := by
  unfold updateActs
  split
  · next hr => simpa [Act.BelongsTo] using hr
  · exact complete_belongs _

end

theorem actsOf_belong (s : State) (i : Instr) : ∀ a ∈ actsOf s i, a.BelongsTo s i := by
  cases i with
  | setup =>
    simp only [actsOf]
    split
    · simp
    · exact setupActs_belong _
  | runInit =>
    simp only [actsOf]
    split
    · simp
    · exact runInitActs_belong _
  | hwResetPulse =>
    simp only [actsOf]
    split
    · next hrst => exact hwResetPulseActs_belong hrst
    · simp
  | romEntry e =>
    simp only [actsOf, romEntryActs, List.forall_mem_append]
    exact ⟨(regWriteActs_wire e).belong, by simp [Act.BelongsTo]⟩
  | update => exact updateActs_belong
  | fill r g b => exact fillActs_belong r g b
  | pixel x y r g b => exact pixelActs_belong x y r g b
  | dumpConfig | convert _ _ _ | illegalOpc0 _ | illegalOpc7 _ | illegalOpc8F _ | toNative _ _ _ | read _ =>
    simp [actsOf, Act.BelongsTo]
  | sendData b | wireData b => exact (sendDataActs_wire b).belong
  | sendData16 w => exact (sendData16Acts_wire w).belong
  | sendColorRun c n => exact (sendColorRunActs_wire c n).belong
  | setAddressWindow x₁ y₁ x₂ y₂ => exact (setAddressWindowActs_wire _ x₁ y₁ x₂ y₂).belong
  | regWrite e => exact (regWriteActs_wire e).belong
  | sendCommand _ | tuningCommand _ | swreset | slpout | noron | invon | dispon | caset | raset | ramwr | madctl
  | colmod => exact (sendCommandActs_wire _).belong

/-! ### Invariants of a state and the acts still to do -/

/-- `Q as s` speaks of the state `s` with the acts `as` still to do; whatever a step is made of keeps it. -/
structure PendingKept (Q : List Act → State → Prop) : Prop where
  effect {a : Act} {as : List Act} {s : State} : Q (a :: as) s → Q as (s.effect a)
  abort (c : TCall) {as : List Act} {s : State} : Q as s → Q [] (s.failCall c).abortTransport
  reset {l : Bool} {as : List Act} {s : State} : Q as s → s.rstN ≠ l → Q [] (s.driveReset l)
  sameRecords {as : List Act} {s t : State} : s.SameRecords t → Q as s → Q as t
  acts (i : Instr) {s : State} : Q [] s → Q (actsOf s i) s

theorem State.sameRecords_countAct (s : State) : s.SameRecords s.countAct := by
  unfold State.countAct
  split <;> rfl

/-- A level that does not change does nothing (log 8). -/
theorem State.driveReset_of_same {l : Bool} {s : State} (h : s.rstN = l) : s.driveReset l = s := by
  unfold State.driveReset
  cases hs : s.rstN <;> cases l <;> simp_all

section
variable {Q : List Act → State → Prop} {s t : State}

theorem PendingKept.effects (hQ : PendingKept Q) {pre rest : List Act} (h : Q (pre ++ rest) s) :
    Q rest (s.effects pre) := by
  induction pre generalizing s with
  | nil => exact h
  | cons a pre ih =>
    exact ih (hQ.effect (hQ.sameRecords s.sameRecords_countAct h))

/-- However a run of acts ends, what is left to do has the invariant. -/
theorem PendingKept.perform (hQ : PendingKept Q) {as : List Act} (h : Q as s) (hw : s.work = []) :
    Q (State.perform as s).work (State.perform as s) := by
  rcases State.perform_cases as s with hp | ⟨pre, rest, ps, rfl, -, -, hp⟩ | ⟨pre, c, rest, rfl, hp⟩ |
    ⟨pre, c, rest, rfl, hp⟩ <;> rw [hp]
  · rw [State.effects_work, hw]
    exact hQ.effects (rest := []) (by simpa using h)
  · simp only [State.effects_work, hw, List.append_nil]
    exact hQ.sameRecords rfl (hQ.effects h)
  · exact hQ.abort c (hQ.sameRecords (State.sameRecords_countAct _) (hQ.effects h))
  · simp only [State.effects_work, hw, List.append_nil]
    exact hQ.sameRecords rfl (hQ.sameRecords (State.sameRecords_countAct _) (hQ.effects h))

theorem PendingKept.exec (hQ : PendingKept Q) {i : Instr} (h : Q [] s) (hw : s.work = []) (hex : exec i s = .next t) :
    Q t.work t := by
  rcases exec_cases hex with rfl | ⟨a, -, rfl⟩ | ⟨s', hb, rfl⟩
  · rwa [hw]
  · exact hw ▸ hQ.sameRecords rfl h
  · have hacts := hQ.acts i h
    cases hb with
    | micro => exact hQ.perform hacts hw
    | accepted l _ => exact hQ.perform (hQ.sameRecords rfl hacts) hw
    | rejected _ => exact hQ.perform (hQ.sameRecords rfl hacts) hw

theorem PendingKept.driveReset (hQ : PendingKept Q) (l : Bool) (h : Q s.work s) :
    Q (s.driveReset l).work (s.driveReset l) := by
  by_cases hl : s.rstN = l
  · rwa [State.driveReset_of_same hl]
  · have hwork : (s.driveReset l).work = [] := by rw [State.driveReset_of_change hl]; rfl
    exact hwork ▸ hQ.reset h hl

theorem PendingKept.step (hQ : PendingKept Q) (h : Q s.work s) (hstep : step s = .next t) : Q t.work t := by
  have htaken : ∀ ins, Q s.work { s with opDone := false, inputs := ins } := fun _ => hQ.sameRecords rfl h
  have hempty : s.accepts = true → ∀ ins, s.work = [] ∧ Q [] { s with opDone := false, inputs := ins } := by
    intro ha ins
    have hw := State.work_of_accepts ha
    exact ⟨hw, hw ▸ hQ.sameRecords (t := { s with opDone := false, inputs := ins }) rfl h⟩
  rcases step_cases hstep with ⟨l, rest, -, rfl⟩ | ⟨a, rest, -, hex⟩ | ⟨c, i, rest, -, ha, -, hex⟩ |
    ⟨w, r, rest, -, ha, -, hrej⟩ | ⟨ins, -, -, -, -, rfl⟩ | ⟨ins, -, rfl⟩
  · exact hQ.driveReset l (htaken rest)
  · cases hex
    exact hQ.sameRecords rfl (htaken rest)
  · obtain ⟨hw, hQs⟩ := hempty ha rest
    exact hQ.exec hQs hw hex
  · -- A rejection has the effect of an unused OPC.
    obtain ⟨hw, hQs⟩ := hempty ha rest
    exact hQ.exec (i := .illegalOpc0 0) hQs hw hrej
  · exact hQ.perform (hQ.sameRecords rfl (htaken ins)) rfl
  · exact htaken ins

end

/-! ### Absent pins (R31) -/

/-- The strap that says whether a pin is there; DC always is (R3, R32). -/
def Config.hasPin (cfg : Config) : Pin → Bool
  | .dc => true
  | .rst => cfg.hasRst
  | .bl => cfg.hasBl

/-- Pin `p`, if absent, is undriven, and no act of `as` touches it. -/
def State.PinIdle (p : Pin) (as : List Act) (s : State) : Prop :=
  Config.hasPin s.cfg p = false → s.pinCfg p = false ∧ s.pinLvl p = false ∧ ∀ a ∈ as, a.onPin p = false

theorem State.absentPinsIdle_iff (s : State) :
    s.AbsentPinsIdle ↔ s.PinIdle .rst s.work ∧ s.PinIdle .bl s.work := Iff.rfl

/-- An act leaves a pin it is not on as it is (R111). -/
theorem State.effect_of_not_onPin {p : Pin} {a : Act} (h : a.onPin p = false) (s : State) :
    (s.effect a).pinCfg p = s.pinCfg p ∧ (s.effect a).pinLvl p = s.pinLvl p := by
  cases a with
  | pinConfigure q | pinWrite q l => 
    cases p <;> cases q <;>
      simp_all [Act.onPin, State.effect, State.pinConfigure, State.pinWrite, State.pinCfg, State.pinLvl]
  | _ => cases p <;> exact ⟨rfl, rfl⟩

theorem Act.BelongsTo.not_onPin {p : Pin} {s : State} {i : Instr} {a : Act} (h : a.BelongsTo s i)
    (hp : Config.hasPin s.cfg p = false) : a.onPin p = false := by
  cases a with
  | pinConfigure q | pinWrite q l =>
    cases p <;> cases q <;> simp_all [Act.onPin, Act.BelongsTo, Config.hasPin]
  | _ => rfl

theorem pendingKept_pinIdle (p : Pin) : PendingKept (State.PinIdle p) where
  effect {a as s} h hp := by
    obtain ⟨hcfg, hlvl, hacts⟩ := h (by simpa using hp)
    obtain ⟨ha, has⟩ := List.forall_mem_cons.mp hacts
    obtain ⟨hcfg', hlvl'⟩ := s.effect_of_not_onPin ha
    exact ⟨hcfg'.trans hcfg, hlvl'.trans hlvl, has⟩
  abort c as s h hp := by
    obtain ⟨hcfg, hlvl, -⟩ := h hp
    cases p <;> exact ⟨hcfg, hlvl, by simp⟩
  reset {l as s} h hl hp := by
    rw [State.driveReset_of_change hl]
    cases p <;> exact ⟨rfl, rfl, by simp⟩
  sameRecords hst h := by
    rw [hst]
    cases p <;> exact h
  acts i s h hp := by
    obtain ⟨hcfg, hlvl, -⟩ := h hp
    exact ⟨hcfg, hlvl, fun a ha => (actsOf_belong s i a ha).not_onPin hp⟩

/-- Settles O54: each optional pin by its own invariant. -/
theorem stepKeepsAbsentPinsIdle : Obligations.StepKeepsAbsentPinsIdle := by
  intro s t hs h
  obtain ⟨hrst, hbl⟩ := s.absentPinsIdle_iff.mp hs
  exact t.absentPinsIdle_iff.mpr ⟨(pendingKept_pinIdle .rst).step hrst h, (pendingKept_pinIdle .bl).step hbl h⟩

/-! ### RUN_CNT (R24) -/

/-- The acts leave RUN_CNT at 0 when they find it there. -/
def KeepsRunBalanced (as : List Act) : Prop := runCntAfter 0 as = 0

theorem KeepsRunBalanced.append {as bs : List Act} (ha : KeepsRunBalanced as) (hb : KeepsRunBalanced bs) :
    KeepsRunBalanced (as ++ bs) := by
  rw [KeepsRunBalanced, runCntAfter_append, ha, hb]

theorem runInitActs_balanced (rom : List RomEntry) : KeepsRunBalanced (runInitActs rom) := by
  have hrom : KeepsRunBalanced (romActs rom) := by
    induction rom with
    | nil => rfl
    | cons e es ih =>
      exact KeepsRunBalanced.append (KeepsRunBalanced.append (regWriteActs_runCnt e 0) (bs := [.romNext]) rfl) ih
  exact hrom

theorem setupActs_balanced (cfg : Config) (rom : List RomEntry) : KeepsRunBalanced (setupActs cfg rom) := by
  have hreset : KeepsRunBalanced (setupResetActs cfg) := by
    unfold setupResetActs
    cases cfg.hasRst <;> rfl
  have hbacklight : KeepsRunBalanced (setupBacklightActs cfg) := by
    unfold setupBacklightActs
    cases cfg.hasBl <;> rfl
  exact KeepsRunBalanced.append rfl <| hreset.append <| (runInitActs_balanced rom).append <|
    hbacklight.append rfl

theorem paintActs_balanced (cfg : Config) (x₁ y₁ x₂ y₂ : Half) (n : BitVec 32) (r g b : Byte) :
    KeepsRunBalanced (paintActs cfg x₁ y₁ x₂ y₂ n r g b) :=
  KeepsRunBalanced.append rfl <| KeepsRunBalanced.append rfl <|
    KeepsRunBalanced.append (sendColorRunActs_runCnt _ n 0) rfl

theorem actsOf_balanced (s : State) (i : Instr) : KeepsRunBalanced (actsOf s i) := by
  cases i with
  | setup =>
    simp only [actsOf]
    split
    · rfl
    · exact setupActs_balanced _ _
  | runInit =>
    simp only [actsOf]
    split
    · rfl
    · exact runInitActs_balanced _
  | hwResetPulse =>
    simp only [actsOf]
    split <;> rfl
  | update =>
    simp only [actsOf, updateActs]
    split <;> rfl
  | fill r g b =>
    simp only [actsOf, fillActs]
    split
    · rfl
    · exact paintActs_balanced _ _ _ _ _ _ _ _ _
  | pixel x y r g b =>
    simp only [actsOf, pixelActs]
    split
    · rfl
    · split
      · rfl
      · exact paintActs_balanced _ _ _ _ _ _ _ _ _
  | sendColorRun c n => exact sendColorRunActs_runCnt c n 0
  | regWrite e => exact regWriteActs_runCnt e 0
  | romEntry e => exact KeepsRunBalanced.append (regWriteActs_runCnt e 0) rfl
  | _ => rfl

theorem pendingKept_runBalanced : PendingKept fun as s => runCntAfter s.runCnt as = 0 where
  effect {a as s} h := by
    rw [State.effect_runCnt, ← runCntAfter_append]
    exact h
  abort _ _ _ _ := rfl
  reset h hl := by
    rw [State.driveReset_of_change hl]
    rfl
  sameRecords hst h := by rw [hst]; exact h
  acts i s h := by
    have hzero : s.runCnt = 0 := h
    rw [hzero]
    exact actsOf_balanced s i

/-- Settles O55: each act takes its share of what is pending, and every instruction's acts are balanced. -/
theorem stepKeepsRunBalanced : Obligations.StepKeepsRunBalanced := by
  intro s t hs h
  have ht : t.RunBalanced := pendingKept_runBalanced.step hs h
  refine ⟨ht, fun hw => ?_⟩
  rw [State.RunBalanced, hw] at ht
  exact ht

end Sys2Proof.Machine
end

section
/-! PROOFS. Who writes the flags and NATIVE_RESULT (R26 to R30, R45, R195), and that a failure is the last event (R215). -/

namespace Sys2Proof.Machine

/-! ### A failing call ends the run -/

/-- No event of the stream is a TFail. -/
def NoFailure (es : List Event) : Prop := ∀ c, Event.tFail c ∉ es

theorem failureLast_append_of_noFailure {es : List Event} (h : NoFailure es) (fs : List Event) :
    failureLast (es ++ fs) = failureLast fs := by
  induction es with
  | nil => rfl
  | cons e es ih =>
    have hes : NoFailure es := fun c hc => h c (List.mem_cons_of_mem _ hc)
    cases e with
    | tFail c => exact absurd List.mem_cons_self (h c)
    | _ => exact ih hes

theorem failureLast_of_noFailure {es : List Event} (h : NoFailure es) : failureLast es = true := by
  simpa [failureLast] using failureLast_append_of_noFailure h []

/-- An act that is done emits no TFail (R110). -/
theorem State.effect_noFailure (a : Act) (s : State) :
    ∃ evs, (s.effect a).trace = s.trace ++ evs ∧ NoFailure evs := by
  cases a with
  | emitReport => exact ⟨[.report s.snapshot], rfl, by simp [NoFailure]⟩
  | pinConfigure p => exact ⟨[.pinCfg p], by simp [State.effect, State.pinConfigure], by simp [NoFailure]⟩
  | pinWrite p l => exact ⟨[.pin p l], by simp [State.effect, State.pinWrite], by simp [NoFailure]⟩
  | tcall c => exact ⟨[c.event], rfl, by cases c <;> simp [NoFailure, TCall.event]⟩
  | wait k ms => exact ⟨[.wait k ms], rfl, by simp [NoFailure]⟩
  | emitWarn => exact ⟨[.warn .notReady], rfl, by simp [NoFailure]⟩
  | _ => exact ⟨[], by simp [State.effect], by simp [NoFailure]⟩

theorem State.effects_noFailure (as : List Act) (s : State) :
    ∃ evs, (s.effects as).trace = s.trace ++ evs ∧ NoFailure evs := by
  induction as generalizing s with
  | nil => exact ⟨[], (List.append_nil _).symm, by simp [NoFailure]⟩
  | cons a as ih =>
    obtain ⟨es, htrace, hes⟩ := s.countAct.effect_noFailure a
    obtain ⟨fs, htrace', hfs⟩ := ih (s.countAct.effect a)
    refine ⟨es ++ fs, ?_, fun c hc => (List.mem_append.mp hc).elim (hes c) (hfs c)⟩
    rw [htrace, State.countAct_trace, List.append_assoc] at htrace'
    exact htrace'

theorem State.perform_failureLast (as : List Act) (s : State) :
    ∃ evs, (State.perform as s).trace = s.trace ++ evs ∧ failureLast evs = true := by
  have hpre : ∀ pre, ∃ evs, (s.effects pre).trace = s.trace ++ evs ∧ failureLast evs = true := fun pre =>
    (s.effects_noFailure pre).imp fun _ h => ⟨h.1, failureLast_of_noFailure h.2⟩
  rcases State.perform_cases as s with hp | ⟨pre, rest, ps, -, -, -, hp⟩ | ⟨pre, c, rest, -, hp⟩ |
    ⟨pre, c, rest, -, hp⟩ <;> rw [hp]
  · exact hpre as
  · exact hpre pre
  · obtain ⟨evs, htrace, hevs⟩ := s.effects_noFailure pre
    exact ⟨evs ++ [.tFail c], by simp [State.failCall, htrace], failureLast_append_of_noFailure hevs _⟩
  · simpa using hpre pre

theorem exec_failureLast {i : Instr} {s t : State} (h : exec i s = .next t) :
    ∃ evs, t.trace = s.trace ++ evs ∧ failureLast evs = true := by
  rcases exec_cases h with rfl | ⟨a, -, rfl⟩ | ⟨s', hb, rfl⟩
  · exact ⟨[], (List.append_nil _).symm, rfl⟩
  · exact ⟨[], (List.append_nil _).symm, rfl⟩
  · exact hb.trace_eq ▸ s'.perform_failureLast _

@[simp] theorem State.driveReset_trace (l : Bool) (s : State) : (s.driveReset l).trace = s.trace := by
  rcases s.driveReset_cases l with ⟨-, hl⟩ | ⟨-, -, hl⟩ | ⟨-, -, hl⟩ <;> rw [hl] <;> rfl

/-- What a step that answers a next state does, by what `fetch` selects. -/
inductive StepDoes (s t : State) : Prop
  | run (i : Instr) (ins : List Input) : s.fetch = .run i { s with opDone := false, inputs := ins } →
      exec i { s with opDone := false, inputs := ins } = .next t → StepDoes s t
  | illegal (ins : List Input) : s.fetch = .illegal { s with opDone := false, inputs := ins } →
      { s with opDone := false, inputs := ins }.rejectDescriptor = .next t → StepDoes s t
  | driveReset (l : Bool) (ins : List Input) : t = { s with opDone := false, inputs := ins }.driveReset l → StepDoes s t
  | resume (ins : List Input) : t = { s with opDone := false, inputs := ins }.resume → StepDoes s t
  | wait (ins : List Input) : t = { s with opDone := false, inputs := ins } → StepDoes s t

theorem stepDoes {s t : State} (h : step s = .next t) : StepDoes s t := by
  cases hr : romAdmissible s.cfg with
  | false => simp [step, State.fetch, hr] at h
  | true =>
    have hf : s.fetch = { s with opDone := false }.select := State.fetch_of_admissible hr
    have hs := State.selects { s with opDone := false }
    rw [← hf] at hs
    rw [step] at h
    generalize hfetch : s.fetch = f at h hs
    cases hs with
    | driveReset l rest _ => exact .driveReset l rest (Host.Outcome.next.inj h).symm
    | read a rest _ => exact .run (.read a) rest hfetch h
    | run c i rest _ _ _ => exact .run i rest hfetch h
    | illegal w r rest _ _ _ => exact .illegal rest hfetch h
    | badRecord => cases h
    | stuck => cases h
    | resume _ _ _ => exact .resume s.inputs (Host.Outcome.next.inj h).symm
    | passResume rest _ _ _ _ => exact .resume rest (Host.Outcome.next.inj h).symm
    | passWait rest _ => exact .wait rest (Host.Outcome.next.inj h).symm
    | waitReset _ => exact .wait s.inputs (Host.Outcome.next.inj h).symm
    | waitInput _ _ => exact .wait s.inputs (Host.Outcome.next.inj h).symm

/-- Settles O27: acts that are done emit no TFail, and the abort ends the run. -/
theorem failureIsTheLastEvent : Obligations.FailureIsTheLastEvent := by
  refine ⟨fun i s t => exec_failureLast, fun s t h => ?_⟩
  cases stepDoes h with
  | run i ins _ hex =>
    obtain ⟨evs, htrace, hevs⟩ := exec_failureLast hex
    exact ⟨evs, htrace, hevs⟩
  | illegal ins _ hrej =>
    obtain ⟨evs, htrace, hevs⟩ := exec_failureLast (i := .illegalOpc0 0) hrej
    exact ⟨evs, htrace, hevs⟩
  | driveReset l ins ht => exact ⟨[], by simp [ht], rfl⟩
  | resume ins ht =>
    obtain ⟨evs, htrace, hevs⟩ := State.perform_failureLast s.work { s with opDone := false, inputs := ins, work := [] }
    exact ⟨evs, ht ▸ htrace, hevs⟩
  | wait ins ht => exact ⟨[], by simp [ht], rfl⟩

/-! ### What a run does to the flags -/

/-- Flags and NATIVE_RESULT of `t` come from those of `s` by acts of `as` and by the failures among the events `evs`. -/
structure State.FlagsFollow (as : List Act) (evs : List Event) (s t : State) : Prop where
  trace : t.trace = s.trace ++ evs
  readyUp : t.ready = true → s.ready = true ∨ Act.setReady true ∈ as
  readyDown : s.ready = true → t.ready = false → Act.setReady false ∈ as ∨ ∃ c, Event.tFail c ∈ evs
  errTransport : t.errTransport = true → s.errTransport = true ∨ ∃ c, Event.tFail c ∈ evs
  errIllegalOp : t.errIllegalOp = true → s.errIllegalOp = true ∨ Act.setIllegalOp ∈ as
  warnNotReady : t.warnNotReady = true → s.warnNotReady = true ∨ Act.setWarn ∈ as
  cleared : Act.clearSticky ∈ as ∨ ((s.errTransport = true → t.errTransport = true) ∧
    (s.errIllegalOp = true → t.errIllegalOp = true) ∧ (s.warnNotReady = true → t.warnNotReady = true))
  nativeResult : t.nativeResult = s.nativeResult ∨ Act.storeNative ∈ as

section
variable {as : List Act} {evs fs : List Event} {s t u : State}

/-- Nothing of it has changed. -/
theorem State.FlagsFollow.of_same (as : List Act) (htrace : t.trace = s.trace) (hr : t.ready = s.ready)
    (ht : t.errTransport = s.errTransport) (hi : t.errIllegalOp = s.errIllegalOp) (hw : t.warnNotReady = s.warnNotReady)
    (hn : t.nativeResult = s.nativeResult) : State.FlagsFollow as [] s t where
  trace := by simp [htrace]
  readyUp h := .inl (hr ▸ h)
  readyDown h h' := by simp [hr, h] at h'
  errTransport h := .inl (ht ▸ h)
  errIllegalOp h := .inl (hi ▸ h)
  warnNotReady h := .inl (hw ▸ h)
  cleared := .inr ⟨fun h => ht ▸ h, fun h => hi ▸ h, fun h => hw ▸ h⟩
  nativeResult := .inl hn

theorem State.FlagsFollow.trans (h : State.FlagsFollow as evs s t) (h' : State.FlagsFollow as fs t u) :
    State.FlagsFollow as (evs ++ fs) s u where
  trace := by rw [h'.trace, h.trace, List.append_assoc]
  readyUp hu := (h'.readyUp hu).elim h.readyUp .inr
  readyDown hs hu := by
    have hleft : (∃ c, Event.tFail c ∈ evs) → ∃ c, Event.tFail c ∈ evs ++ fs :=
      Exists.imp fun _ => List.mem_append_left _
    have hright : (∃ c, Event.tFail c ∈ fs) → ∃ c, Event.tFail c ∈ evs ++ fs :=
      Exists.imp fun _ => List.mem_append_right _
    cases ht : t.ready with
    | true => exact (h'.readyDown ht hu).imp_right hright
    | false => exact (h.readyDown hs ht).imp_right hleft
  errTransport hu := by
    rcases h'.errTransport hu with ht | ⟨c, hc⟩
    · exact (h.errTransport ht).imp_right (Exists.imp fun _ => List.mem_append_left _)
    · exact .inr ⟨c, List.mem_append_right _ hc⟩
  errIllegalOp hu := (h'.errIllegalOp hu).elim h.errIllegalOp .inr
  warnNotReady hu := (h'.warnNotReady hu).elim h.warnNotReady .inr
  cleared := by
    rcases h.cleared with hc | ⟨h₁, h₂, h₃⟩
    · exact .inl hc
    · exact h'.cleared.imp_right fun ⟨k₁, k₂, k₃⟩ => ⟨k₁ ∘ h₁, k₂ ∘ h₂, k₃ ∘ h₃⟩
  nativeResult := by
    rcases h.nativeResult with hn | hn
    · exact h'.nativeResult.imp_left (·.trans hn)
    · exact .inr hn

/-- An act writes the flag that is its own, and no other. -/
theorem State.effect_flagsFollow {a : Act} (ha : a ∈ as) (s : State) :
    ∃ evs, State.FlagsFollow as evs s (s.effect a) := by
  have emits : ∀ (e : Event) (t : State), t.trace = s.trace ++ [e] → t.ready = s.ready →
      t.errTransport = s.errTransport → t.errIllegalOp = s.errIllegalOp → t.warnNotReady = s.warnNotReady →
      t.nativeResult = s.nativeResult → State.FlagsFollow as [e] s t := fun e t h hr ht hi hw hn =>
    { State.FlagsFollow.of_same (s := s) (t := { t with trace := s.trace }) as rfl hr ht hi hw hn with
      trace := h
      readyDown := fun h h' => by simp [hr, h] at h'
      errTransport := fun h => .inl (ht ▸ h) }
  cases a with
  | pinConfigure p =>
    refine ⟨[.pinCfg p], ?_⟩
    cases p <;> exact emits _ _ rfl rfl rfl rfl rfl rfl
  | pinWrite p l =>
    refine ⟨[.pin p l], ?_⟩
    cases p <;> exact emits _ _ rfl rfl rfl rfl rfl rfl
  | tcall c => exact ⟨_, emits c.event _ rfl rfl rfl rfl rfl rfl⟩
  | wait k ms => exact ⟨_, emits (.wait k ms) _ rfl rfl rfl rfl rfl rfl⟩
  | emitWarn => exact ⟨_, emits (.warn .notReady) _ rfl rfl rfl rfl rfl rfl⟩
  | emitReport => exact ⟨_, emits (.report s.snapshot) _ rfl rfl rfl rfl rfl rfl⟩
  | setReady v =>
    refine ⟨[], { State.FlagsFollow.of_same (s := s) (t := s) as rfl rfl rfl rfl rfl rfl with
      readyUp := fun h => .inr ?_, readyDown := fun _ h => .inl ?_ }⟩
    · obtain rfl : v = true := h
      exact ha
    · obtain rfl : v = false := h
      exact ha
  | clearSticky =>
    exact ⟨[], { State.FlagsFollow.of_same (s := s) (t := s) as rfl rfl rfl rfl rfl rfl with
      errTransport := nofun, errIllegalOp := nofun, warnNotReady := nofun, cleared := .inl ha }⟩
  | setIllegalOp =>
    exact ⟨[], { State.FlagsFollow.of_same (s := s) (t := s) as rfl rfl rfl rfl rfl rfl with
      errIllegalOp := fun _ => .inr ha, cleared := .inr ⟨id, fun _ => rfl, id⟩ }⟩
  | setWarn =>
    exact ⟨[], { State.FlagsFollow.of_same (s := s) (t := s) as rfl rfl rfl rfl rfl rfl with
      warnNotReady := fun _ => .inr ha, cleared := .inr ⟨id, id, fun _ => rfl⟩ }⟩
  | storeNative =>
    exact ⟨[], { State.FlagsFollow.of_same (s := s) (t := s) as rfl rfl rfl rfl rfl rfl with nativeResult := .inr ha }⟩
  | _ => exact ⟨[], .of_same as rfl rfl rfl rfl rfl rfl⟩

theorem State.abort_flagsFollow (as : List Act) (c : TCall) (s : State) :
    State.FlagsFollow as [.tFail c] s (s.failCall c).abortTransport where
  trace := rfl
  readyUp := nofun
  readyDown _ _ := .inr ⟨c, List.mem_singleton_self _⟩
  errTransport _ := .inr ⟨c, List.mem_singleton_self _⟩
  errIllegalOp := .inl
  warnNotReady := .inl
  cleared := .inr ⟨fun _ => rfl, id, id⟩
  nativeResult := .inl rfl

theorem State.perform_flagsFollow (as : List Act) (s : State) :
    ∃ evs, State.FlagsFollow as evs s (State.perform as s) :=
  State.perform_keeps (P := fun t => ∃ evs, State.FlagsFollow as evs s t) ⟨[], .of_same as rfl rfl rfl rfl rfl rfl⟩
    (fun _ ha t ⟨evs, h⟩ => (t.effect_flagsFollow ha).elim fun fs h' => ⟨evs ++ fs, h.trans h'⟩)
    (fun c t ⟨evs, h⟩ => ⟨evs ++ [.tFail c], h.trans (t.abort_flagsFollow as c)⟩)
    fun t _ _ _ _ ⟨evs, h⟩ => ⟨evs ++ [], h.trans (t := t) (.of_same as rfl rfl rfl rfl rfl rfl)⟩

/-- What is left to do was given, or was pending. -/
theorem State.mem_work_of_perform {a : Act} (h : a ∈ (State.perform as s).work) : a ∈ as ∨ a ∈ s.work := by
  rcases State.perform_cases as s with hp | ⟨pre, rest, ps, rfl, -, -, hp⟩ | ⟨pre, c, rest, rfl, hp⟩ |
    ⟨pre, c, rest, rfl, hp⟩ <;> rw [hp] at h
  · exact .inr (by simpa using h)
  · exact (List.mem_append.mp h).imp (List.mem_append_right _) (by simp)
  · cases h
  · exact (List.mem_append.mp h).imp (List.mem_append_right _) (by simp)

theorem exec_flagsFollow {i : Instr} (h : exec i s = .next t) :
    (∃ evs, State.FlagsFollow (actsOf s i) evs s t) ∧ ∀ a ∈ t.work, a ∈ actsOf s i ∨ a ∈ s.work := by
  rcases exec_cases h with rfl | ⟨a, -, rfl⟩ | ⟨s', hb, rfl⟩
  · exact ⟨⟨[], .of_same _ rfl rfl rfl rfl rfl rfl⟩, fun _ => .inr⟩
  · exact ⟨⟨[], .of_same _ rfl rfl rfl rfl rfl rfl⟩, fun _ => .inr⟩
  · obtain ⟨evs, hrun⟩ := State.perform_flagsFollow (actsOf s i) s'
    have hbegin : State.FlagsFollow (actsOf s i) [] s s' := by
      cases hb <;> exact .of_same _ rfl rfl rfl rfl rfl rfl
    have hwork : s'.work = s.work := by cases hb <;> rfl
    exact ⟨⟨_, hbegin.trans hrun⟩, fun a ha => hwork ▸ State.mem_work_of_perform ha⟩

end

/-! ### The obligation -/

/-- R240: whatever level `rst_n` takes, flags and NATIVE_RESULT are kept, or it has changed and they are cleared. -/
theorem State.driveReset_flags (l : Bool) (s : State) :
    s.driveReset l = s ∨ ((s.driveReset l).rstN ≠ s.rstN ∧ (s.driveReset l).ready = false ∧
      (s.driveReset l).errTransport = false ∧ (s.driveReset l).errIllegalOp = false ∧
      (s.driveReset l).warnNotReady = false ∧ (s.driveReset l).work = []) := by
  by_cases hl : s.rstN = l
  · exact .inl (State.driveReset_of_same hl)
  · rw [State.driveReset_of_change hl]
    exact .inr ⟨Ne.symm hl, rfl, rfl, rfl, rfl, rfl⟩

/-- What the second half of the obligation says of a step from `s` to `t`, the events `evs` appended. -/
def State.StepFlags (s t : State) (evs : List Event) : Prop :=
  t.trace = s.trace ++ evs ∧
    (t.ready = true → s.ready = true ∨ s.Runs .setup ∨ .setReady true ∈ s.work) ∧
    (s.ready = true → t.ready = false →
      s.Runs .setup ∨ .setReady false ∈ s.work ∨ (∃ c, .tFail c ∈ evs) ∨ t.rstN ≠ s.rstN) ∧
    (t.errTransport = true → s.errTransport = true ∨ ∃ c, .tFail c ∈ evs) ∧
    (t.errIllegalOp = true → s.errIllegalOp = true ∨ s.Rejects ∨ .setIllegalOp ∈ s.work) ∧
    (t.warnNotReady = true → s.warnNotReady = true ∨ (s.Runs .update ∧ s.ready = false) ∨ .setWarn ∈ s.work) ∧
    (s.errTransport = true ∧ t.errTransport = false ∨ s.errIllegalOp = true ∧ t.errIllegalOp = false ∨
        s.warnNotReady = true ∧ t.warnNotReady = false →
      s.Runs .setup ∨ .clearSticky ∈ s.work ∨ t.rstN ≠ s.rstN) ∧
    (t.nativeResult ≠ s.nativeResult →
      (∃ r g b, s.Runs (.convert r g b)) ∨ .storeNative ∈ s.work ∨ t.rstN ≠ s.rstN) ∧
    (∀ v, .setReady v ∈ t.work → .setReady v ∈ s.work ∨ s.Runs .setup) ∧
    (.clearSticky ∈ t.work → .clearSticky ∈ s.work ∨ s.Runs .setup) ∧
    (.setIllegalOp ∈ t.work → .setIllegalOp ∈ s.work ∨ s.Rejects) ∧
    (.setWarn ∈ t.work → .setWarn ∈ s.work ∨ (s.Runs .update ∧ s.ready = false)) ∧
    (.storeNative ∈ t.work → .storeNative ∈ s.work ∨ ∃ r g b, s.Runs (.convert r g b))

/-- Acts that were pending, or that the instruction which the step runs owns. -/
structure State.ActsOwned (as : List Act) (s : State) : Prop where
  setReady (v : Bool) : Act.setReady v ∈ as → .setReady v ∈ s.work ∨ s.Runs .setup
  clearSticky : Act.clearSticky ∈ as → .clearSticky ∈ s.work ∨ s.Runs .setup
  setIllegalOp : Act.setIllegalOp ∈ as → .setIllegalOp ∈ s.work ∨ s.Rejects
  setWarn : Act.setWarn ∈ as → .setWarn ∈ s.work ∨ (s.Runs .update ∧ s.ready = false)
  storeNative : Act.storeNative ∈ as → .storeNative ∈ s.work ∨ ∃ r g b, s.Runs (.convert r g b)

theorem State.StepFlags.of_run {as : List Act} {evs : List Event} {s t : State} (h : State.FlagsFollow as evs s t)
    (has : s.ActsOwned as) (hwork : s.ActsOwned t.work) : s.StepFlags t evs := by
  refine ⟨h.trace, fun ht => ?_, fun hs ht => ?_, h.errTransport, fun ht => ?_, fun ht => ?_, fun hc => ?_,
    fun hn => ?_, hwork.setReady, hwork.clearSticky, hwork.setIllegalOp, hwork.setWarn, hwork.storeNative⟩
  · exact (h.readyUp ht).imp_right fun ha => (has.setReady _ ha).symm
  · rcases h.readyDown hs ht with ha | hf
    · exact (has.setReady _ ha).elim (.inr ∘ .inl) .inl
    · exact .inr (.inr (.inl hf))
  · exact (h.errIllegalOp ht).imp_right fun ha => (has.setIllegalOp ha).symm
  · exact (h.warnNotReady ht).imp_right fun ha => (has.setWarn ha).symm
  · rcases h.cleared with ha | ⟨h₁, h₂, h₃⟩
    · exact (has.clearSticky ha).elim (.inr ∘ .inl) .inl
    · rcases hc with ⟨hs, ht⟩ | ⟨hs, ht⟩ | ⟨hs, ht⟩
      · simp [h₁ hs] at ht
      · simp [h₂ hs] at ht
      · simp [h₃ hs] at ht
  · exact (has.storeNative (h.nativeResult.resolve_left hn)).elim (.inr ∘ .inl) .inl

theorem State.ActsOwned.of_pending {as : List Act} {s : State} (h : ∀ a ∈ as, a ∈ s.work) : s.ActsOwned as :=
  ⟨fun _ ha => .inl (h _ ha), fun ha => .inl (h _ ha), fun ha => .inl (h _ ha), fun ha => .inl (h _ ha),
    fun ha => .inl (h _ ha)⟩

/-- The acts of the instruction a step runs are owned by it. -/
theorem State.ActsOwned.of_belong {as : List Act} {i : Instr} {s s' : State} (hf : s.fetch = .run i s')
    (hready : s'.ready = s.ready) (h : ∀ a ∈ as, a.BelongsTo s' i ∨ a ∈ s.work) : s.ActsOwned as where
  setReady v ha := (h _ ha).symm.imp_right fun hi => ⟨s', by rw [hf, show i = _ from hi]⟩
  clearSticky ha := (h _ ha).symm.imp_right fun hi => ⟨s', by rw [hf, show i = _ from hi]⟩
  setIllegalOp ha := (h _ ha).symm.imp_right fun hi => by
    rcases hi with ⟨u, rfl | rfl⟩ | ⟨v, rfl⟩
    · exact .inl ⟨u, s', hf⟩
    · exact .inr (.inl ⟨u, s', hf⟩)
    · exact .inr (.inr (.inl ⟨v, s', hf⟩))
  setWarn ha := (h _ ha).symm.imp_right fun hi => ⟨⟨s', by rw [hf, hi.1]⟩, hready ▸ hi.2⟩
  storeNative ha := (h _ ha).symm.imp_right fun ⟨r, g, b, hi⟩ => ⟨r, g, b, s', by rw [hf, hi]⟩

/-- The acts of a rejection are owned by a step that rejects a descriptor. -/
theorem State.ActsOwned.of_rejects {as : List Act} {s : State} (hrej : s.Rejects)
    (h : ∀ a ∈ as, a ∈ [.setIllegalOp, .complete statusErrIllegalOp] ∨ a ∈ s.work) : s.ActsOwned as where
  setReady _ ha := .inl ((h _ ha).resolve_left (by simp))
  clearSticky ha := .inl ((h _ ha).resolve_left (by simp))
  setIllegalOp _ := .inr hrej
  setWarn ha := .inl ((h _ ha).resolve_left (by simp))
  storeNative ha := .inl ((h _ ha).resolve_left (by simp))

/-- A step that leaves flags and pending acts alone. -/
theorem State.StepFlags.of_wait (s : State) (ins : List Input) :
    s.StepFlags { s with opDone := false, inputs := ins } [] :=
  .of_run (as := []) (.of_same _ rfl rfl rfl rfl rfl rfl) (.of_pending nofun) (.of_pending fun _ => id)

/-- A change of `rst_n` clears the flags, and nothing is pending (R240). -/
theorem State.StepFlags.of_reset {s t : State} (htrace : t.trace = s.trace) (hne : t.rstN ≠ s.rstN)
    (hr : t.ready = false) (ht : t.errTransport = false) (hi : t.errIllegalOp = false) (hw : t.warnNotReady = false)
    (hwork : t.work = []) : s.StepFlags t [] := by
  simp [State.StepFlags, htrace, hne, hr, ht, hi, hw, hwork]

theorem step_flags {s t : State} (h : step s = .next t) : ∃ evs, s.StepFlags t evs := by
  cases stepDoes h with
  | run i ins hf hex =>
    obtain ⟨⟨evs, hrun⟩, hwork⟩ := exec_flagsFollow hex
    exact ⟨evs, .of_run { hrun with } (.of_belong hf rfl fun a ha => .inl (actsOf_belong _ i a ha))
      (.of_belong hf rfl fun a ha => (hwork a ha).imp_left (actsOf_belong _ i a))⟩
  | illegal ins hf hrej =>
    obtain ⟨⟨evs, hrun⟩, hwork⟩ := exec_flagsFollow (i := .illegalOpc0 0) hrej
    have hrejects : s.Rejects := .inr (.inr (.inr ⟨_, hf⟩))
    exact ⟨evs, .of_run { hrun with } (.of_rejects hrejects fun _ => .inl) (.of_rejects hrejects hwork)⟩
  | driveReset l ins ht =>
    rcases State.driveReset_flags l { s with opDone := false, inputs := ins } with hsame | ⟨hne, hr, htr, hi, hw, hwork⟩
    · exact ⟨[], (ht.trans hsame) ▸ .of_wait s ins⟩
    · exact ⟨[], ht ▸ .of_reset (by simp) hne hr htr hi hw hwork⟩
  | resume ins ht =>
    obtain ⟨evs, hrun⟩ := State.perform_flagsFollow s.work { s with opDone := false, inputs := ins, work := [] }
    have hwork : ∀ a ∈ t.work, a ∈ s.work := fun a ha => (State.mem_work_of_perform (ht ▸ ha)).resolve_right (by simp)
    exact ⟨evs, .of_run (ht ▸ { hrun with }) (.of_pending fun _ => id) (.of_pending hwork)⟩
  | wait ins ht => exact ⟨[], ht ▸ .of_wait s ins⟩

/-- Settles O60: every flag is written by acts of its owner, by a failure, or by a change of `rst_n`. -/
theorem flagsHaveTheirWriters : Obligations.FlagsHaveTheirWriters := by
  refine ⟨fun i s t h => ?_, fun s t h => step_flags h⟩
  obtain ⟨⟨evs, hrun⟩, -⟩ := exec_flagsFollow h
  have hbelong := actsOf_belong s i
  refine ⟨evs, hrun.trace, fun ht => (hrun.readyUp ht).imp_right (hbelong _), fun hs ht =>
    (hrun.readyDown hs ht).imp_left (hbelong _), hrun.errTransport, fun ht =>
    (hrun.errIllegalOp ht).imp_right (hbelong _), fun ht => (hrun.warnNotReady ht).imp_right (hbelong _),
    fun hne => hrun.cleared.resolve_left fun ha => hne (hbelong _ ha), fun hne => ?_⟩
  refine hrun.nativeResult.resolve_right fun ha => ?_
  obtain ⟨r, g, b, hi⟩ := hbelong _ ha
  exact hne r g b hi

end Sys2Proof.Machine
end

section
/-! PROOFS. What the block takes and when (R44, R190, R220, R240, R241), and the operations that are cut or held (R44, R54,
R69, R220). -/

namespace Sys2Proof.Machine

section
variable {s : State}

/-! ### The step, by what is presented -/

/-- Nothing, or a descriptor, is presented while an operation is in progress: the work goes on, or is held (R190). -/
theorem State.select_of_inProgress (hr : s.rstN = true) (hp : s.inProgress = true)
    (hi : s.inputs = [] ∨ ∃ w rest, s.inputs = .code (.descriptor w) :: rest) : s.select = s.continueWork := by
  rcases hi with hi | ⟨w, rest, hi⟩ <;> simp [State.select, hi, hr, hp]

/-- Nothing is presented to a block with nothing to do (R241). -/
theorem State.select_of_idle (ha : s.accepts = true) (hi : s.inputs = []) :
    s.select = .wait s := by
  obtain ⟨-, hfree⟩ := (State.accepts_iff s).mp ha
  simp [State.select, hi, hfree]

theorem step_of_regAddr (h : romAdmissible s.cfg = true) {a : RegAddr} {rest : List Input}
    (hi : s.inputs = .code (.regAddr a) :: rest) :
    step s = .next { s with opDone := false, inputs := rest, regRdata := s.regValue a } := by
  rw [step, State.fetch_of_admissible h]
  simp only [State.select, hi]
  rfl

/-- Settles O8: a register address is always taken; any other code is, when the block accepts. -/
theorem stepRunsTheDecodedInstruction : Obligations.StepRunsTheDecodedInstruction := by
  intro s c rest i h hi hacc hd
  rw [step, State.fetch_of_admissible h]
  rcases hacc with ha | ⟨a, rfl⟩
  · obtain ⟨hr, hfree⟩ := (State.accepts_iff s).mp ha
    have hfree' : ({ s with opDone := false } : State).inProgress = false := hfree
    cases c <;> simp_all [State.select, State.take, decode]
  · cases hd
    simp only [State.select, hi]

end

/-- Settles O44: the three rows share one meaning, two acts that make no call. -/
theorem illegalOpcodesRejected : Obligations.IllegalOpcodesRejected := by
  intro s u v ha hp i hi
  have hrej := State.rejectDescriptor_of_accepts ha hp
  simp only [List.mem_cons, List.not_mem_nil, or_false] at hi
  rcases hi with rfl | rfl | rfl <;> exact hrej

/-- Settles O12: a descriptor waits and so does the work; the address is taken first. -/
theorem heldBlockIsStuckButReads : Obligations.HeldBlockIsStuckButReads := by
  intro s c h hr hheld hseq
  refine ⟨fun hi => ?_, fun a rest hi => step_of_regAddr h hi, ?_⟩
  · rw [step, State.fetch_of_admissible h, State.select_of_inProgress (by exact hr)
      (State.inProgress_of_busy (by exact hseq)) (by exact hi)]
    simp [State.continueWork, hheld]
  · exact (s.statusReg_flags 4).trans (s.busy_iff.mpr hseq)

/-! ### What the block takes, and when -/

/-- A block that does not accept leaves every operation of the port waiting (R190, R240). -/
theorem exec_of_not_accepts {s : State} {i : Instr} (h : romAdmissible s.cfg = true) (ha : s.accepts = false)
    {x y : Half} {r g b : Byte} {u : BitVec 60} {v : BitVec 63}
    (hi : i ∈ [Instr.setup, .update, .dumpConfig, .fill r g b, .pixel x y r g b, .convert r g b, .illegalOpc0 u,
      .illegalOpc7 u, .illegalOpc8F v]) : exec i s = .next s := by
  have hoperate : ∀ l as, s.operate l as = .next s := fun l as => by simp [State.operate, ha]
  have hreject : s.rejectDescriptor = .next s := by simp [State.rejectDescriptor, ha]
  obtain ⟨rom, hrom⟩ := Option.isSome_iff_exists.mp h
  simp only [List.mem_cons, List.not_mem_nil, or_false] at hi
  rcases hi with rfl | rfl | rfl | rfl | rfl | rfl | rfl | rfl | rfl
  · rw [exec_setup hrom, hoperate]
  · exact hoperate _ _
  · exact hoperate _ _
  · exact hoperate _ _
  · exact hoperate _ _
  · exact hoperate _ _
  · exact hreject
  · exact hreject
  · exact hreject

theorem State.not_accepts {s : State} (h : s.rstN = false ∨ s.seq = .busy) : s.accepts = false := by
  rcases h with h | h
  · simp [State.accepts, h]
  · simp [State.accepts, State.inProgress_of_busy h]

/-- Going on with the work takes nothing that is presented. -/
theorem State.resume_inputs (s : State) : s.resume.inputs = s.inputs := State.perform_inputs _ _

theorem step_of_pass {s : State} {rest : List Input} (h : romAdmissible s.cfg = true) (hi : s.inputs = .pass :: rest) :
    step s = if s.rstN && s.inProgress && s.held.isNone
      then .next { s with opDone := false, inputs := rest }.resume
      else .next { s with opDone := false, inputs := rest } := by
  have hprogress : ({ s with opDone := false, inputs := rest } : State).inProgress = s.inProgress := rfl
  rw [step, State.fetch_of_admissible h]
  simp only [State.select, hi, State.passTurn, hprogress]
  cases s.rstN && s.inProgress && s.held.isNone <;> rfl

/-- Settles O11: each clause by what `select` does with the first input. -/
theorem blockTakesOnlyWhenReady : Obligations.BlockTakesOnlyWhenReady := by
  refine ⟨fun s w rest h hr hi hseq hheld => ?_, fun s h hr hi => ?_, fun s h hi ha => ?_,
    fun s x y r g b u v h hn i hi => exec_of_not_accepts h (State.not_accepts hn) hi,
    fun s rest h hi => ⟨fun hr hseq hheld => ?_, fun hn => ?_⟩, rfl, fun s l rest h hi => ⟨fun hl => ?_, ?_⟩⟩
  · refine ⟨_, ?_, rfl, State.resume_inputs _⟩
    rw [step, State.fetch_of_admissible h,
      State.select_of_inProgress (by exact hr) (State.inProgress_of_busy (by exact hseq))
        (.inr ⟨w, rest, by exact hi⟩)]
    simp [State.continueWork, hheld]
  · rw [step, State.fetch_of_admissible h]
    rcases hi with hi | ⟨w, rest, hi⟩ <;> simp [State.select, hi, hr]
  · rw [step, State.fetch_of_admissible h, State.select_of_idle (by exact ha) (by exact hi)]
  · refine ⟨_, ?_, rfl, State.resume_inputs _⟩
    rw [step_of_pass h hi, hr, State.inProgress_of_busy hseq, hheld]
    rfl
  · have hwait : (s.rstN && s.inProgress && s.held.isNone) = false := by
      rcases hn with hr | ha | hheld
      · simp [hr]
      · simp [((State.accepts_iff s).mp ha).2]
      · simp [Option.isNone_eq_false_iff.mpr hheld]
    rw [step_of_pass h hi, hwait]
    rfl
  · rw [step_of_rstN h hi, State.driveReset_of_same (by exact hl)]
  · rintro hr rfl - hprogress
    have hcut := State.ghostAfterReset_cut (s := { s with opDone := false, inputs := rest }) hprogress
    rw [step_of_rstN h hi, State.driveReset_of_change (by simp [hr])]
    exact ⟨_, rfl, congrArg Ghost.panel hcut, fun f => hcut ▸ Ghost.mem_addFault .abortedByReset f s.ghost.corrupt⟩

/-! ### A call that is never answered (R220) -/

/-- A run whose call is never answered does the acts before the call, and is held in it. -/
theorem State.perform_of_never {as : List Act} {s : State} {k : Nat} {c : TCall} {later : List Answer}
    (hs : s.Answers k .never later) (hc : nthCall k (as.flatMap Act.events) = some c) :
    ∃ pre rest work, as = pre ++ .tcall c :: rest ∧ pre.flatMap Act.events = beforeCall k (as.flatMap Act.events) ∧
      State.perform as s = { s.effects pre with
        transport := { (s.effects pre).transport with script := later }, held := some c, work := .tcall c :: work } := by
  obtain ⟨pre, rest, rfl, rfl, hbefore⟩ := exists_acts_before_call hc
  obtain ⟨hp, hscript⟩ := hs
  obtain ⟨hp', hscript'⟩ := State.effects_answers hp hscript
  have hheld : (s.effects pre).act (.tcall c) =
      .held c { s.effects pre with transport := { (s.effects pre).transport with script := later } } := by
    simp [State.act, State.tcall, Transport.answer, Transport.next, hscript']
  refine ⟨pre, rest, rest ++ (s.effects pre).work, rfl, hbefore.symm, ?_⟩
  rw [State.perform_append_of_answered hp hscript, State.perform, hp']
  simp only [State.countAct_of_no_pauses hp', hheld]
  rfl

/-- Acts that complete nothing leave SEQ and op_done as they are. -/
theorem State.effect_seq_opDone {a : Act} (h : ∀ status, a ≠ .complete status) (s : State) :
    (s.effect a).seq = s.seq ∧ (s.effect a).opDone = s.opDone := by
  cases a with
  | complete status => exact absurd rfl (h status)
  | _ => simp [State.effect, State.pinConfigure, State.pinWrite]

theorem State.effects_seq_opDone {as : List Act} (h : ∀ status, Act.complete status ∉ as) {s : State}
    (hp : s.pauses = []) : (s.effects as).seq = s.seq ∧ (s.effects as).opDone = s.opDone := by
  induction as generalizing s with
  | nil => exact ⟨rfl, rfl⟩
  | cons a as ih =>
    obtain ⟨hseq, hdone⟩ := State.effect_seq_opDone (a := a) (fun status he => h status (by simp [he])) s
    obtain ⟨hseq', hdone'⟩ := ih (fun status hm => h status (List.mem_cons_of_mem _ hm))
      ((State.effect_pauses a s).trans hp)
    rw [State.effects_cons hp]
    exact ⟨hseq'.trans hseq, hdone'.trans hdone⟩

/-- The operation is accepted, does the acts before its call, and stays in the call. -/
structure State.HoldsAfter (s : State) (evs : List Event) (c : TCall) (later : List Answer) (t : State) : Prop where
  seq : t.seq = .busy
  held : t.held = some c
  opDone : t.opDone = false
  work : t.work ≠ []
  script : t.transport.script = later
  trace : t.trace = s.trace ++ evs

/-- An operation that completes with its last act has not completed when it is held. -/
theorem State.accept_perform_holdsAfter {as body : List Act} {status : BitVec 4} {s : State} {k : Nat} {c : TCall}
    {later : List Answer} (l : Latches) (hbody : as = body ++ [.complete status]) (hlast : ∀ st, Act.complete st ∉ body)
    (hrep : Act.emitReport ∉ as) (hs : s.Answers k .never later) (hc : nthCall k (as.flatMap Act.events) = some c) :
    s.HoldsAfter (beforeCall k (as.flatMap Act.events)) c later (State.perform as (s.accept l)) := by
  obtain ⟨pre, rest, work, rfl, hbefore, hrun⟩ := State.perform_of_never (s := s.accept l) hs hc
  have hpre : ∀ a ∈ pre, a ∈ body := by
    have hdrop := congrArg List.dropLast hbody
    rw [List.dropLast_append_of_ne_nil (by simp), List.dropLast_concat] at hdrop
    exact fun a ha => hdrop ▸ List.mem_append_left _ ha
  obtain ⟨hseq, hdone⟩ := State.effects_seq_opDone (s := s.accept l) (fun st hm => hlast st (hpre _ hm)) hs.1
  have hemits := State.effects_emits (as := pre) (s := s.accept l) hs.1 fun hm => hrep (List.mem_append_left _ hm)
  rw [hrun, ← hbefore]
  exact ⟨hseq, rfl, hdone, by simp, rfl, hemits.trace⟩

theorem WireActs.complete_notMem {as : List Act} (h : WireActs as) (status : BitVec 4) : Act.complete status ∉ as := by
  induction h <;> simp_all

theorem complete_notMem_romActs (rom : List RomEntry) (status : BitVec 4) : Act.complete status ∉ romActs rom := by
  induction rom with
  | nil => simp [romActs]
  | cons e es ih => simp [romActs, romEntryActs, ih, (regWriteActs_wire e).complete_notMem]

theorem setupActs_completes_last (cfg : Config) (rom : List RomEntry) :
    ∃ body, setupActs cfg rom = body ++ [.complete statusOk] ∧ ∀ st, Act.complete st ∉ body := by
  refine ⟨[.setReady false, .clearSticky, .tcall .cfg, .pinConfigure .dc, .pinWrite .dc false] ++
    (setupResetActs cfg ++ (runInitActs rom ++ (setupBacklightActs cfg ++ [.setReady true]))), by simp [setupActs], ?_⟩
  intro st
  have hreset : Act.complete st ∉ setupResetActs cfg := by
    unfold setupResetActs
    split <;> simp [hwResetPulseActs]
  have hbacklight : Act.complete st ∉ setupBacklightActs cfg := by
    unfold setupBacklightActs
    split <;> simp
  simp [hreset, hbacklight, runInitActs, complete_notMem_romActs]

theorem paintActs_completes_last (cfg : Config) (x₁ y₁ x₂ y₂ : Half) (n : BitVec 32) (r g b : Byte) :
    ∃ body, paintActs cfg x₁ y₁ x₂ y₂ n r g b = body ++ [.complete statusOk] ∧ ∀ st, Act.complete st ∉ body := by
  refine ⟨paintHeadActs cfg x₁ y₁ x₂ y₂ r g b ++ sendColorRunActs (toNative cfg.swapRb r g b) n,
    by simp [paintActs_eq], fun st => ?_⟩
  simp [paintHeadActs, (setAddressWindowActs_wire _ _ _ _ _).complete_notMem,
    (sendColorRunActs_wire _ _).complete_notMem]

/-- Settles O13: SETUP, FILL and PIXEL complete with their last act, and the call comes before it. -/
theorem unansweredCallHolds : Obligations.UnansweredCallHolds := by
  intro s rom i k c later ha h hr hs hc
  have hholds : ∃ t, exec i s = .next t ∧ s.HoldsAfter (beforeCall k (operationEvents s.cfg rom i)) c later t := by
    rcases cases_of_operation_call hc with rfl | ⟨r, g, b, rfl⟩ | ⟨x, y, r, g, b, rfl, hin⟩
    · obtain ⟨body, hbody, hlast⟩ := setupActs_completes_last s.cfg rom
      have hevents : (setupActs s.cfg rom).flatMap Act.events = operationEvents s.cfg rom .setup :=
        setupActs_events s.cfg rom
      rw [← hevents] at hc ⊢
      rw [exec_setup h, State.operate_of_accepts ha]
      exact ⟨_, rfl, State.accept_perform_holdsAfter _ hbody hlast (setupActs_emitReport_notMem _ _) hs hc⟩
    · obtain ⟨body, hbody, hlast⟩ := paintActs_completes_last s.cfg 0 0 239 239 fillCount r g b
      have hevents : (paintActs s.cfg 0 0 239 239 fillCount r g b).flatMap Act.events =
          operationEvents s.cfg rom (.fill r g b) := paintActs_events ..
      rw [← hevents] at hc ⊢
      rw [exec_fill, fillActs_of_ready (hr.resolve_right nofun), State.operate_of_accepts ha]
      exact ⟨_, rfl, State.accept_perform_holdsAfter _ hbody hlast paintActs_emitReport_notMem hs hc⟩
    · obtain ⟨body, hbody, hlast⟩ := paintActs_completes_last s.cfg x y x y 1 r g b
      have hevents : (paintActs s.cfg x y x y 1 r g b).flatMap Act.events =
          operationEvents s.cfg rom (.pixel x y r g b) := (paintActs_events ..).trans (if_pos hin).symm
      rw [← hevents] at hc ⊢
      rw [exec_pixel, pixelActs_of_written (hr.resolve_right nofun) hin, State.operate_of_accepts ha]
      exact ⟨_, rfl, State.accept_perform_holdsAfter _ hbody hlast paintActs_emitReport_notMem hs hc⟩
  obtain ⟨t, hexec, hheld⟩ := hholds
  exact ⟨t, hexec, hheld.seq, by simp [State.opReady, hheld.seq], hheld.held, hheld.opDone, hheld.work, hheld.script,
    hheld.trace⟩

/-! ### An operation that the outside interrupts (R44, R54, R69) -/

/-- `s` with other turns of the outside to come and other read data: what no act reads. -/
def State.withTurns (ps : List Nat) (v : Half) (s : State) : State := { s with pauses := ps, regRdata := v }

def Progress.map (f : State → State) : Progress → Progress
  | .done s => .done (f s)
  | .failed s => .failed (f s)
  | .held c s => .held c (f s)

theorem State.act_withTurns (a : Act) (ps : List Nat) (v : Half) (s : State) :
    (s.withTurns ps v).act a = (s.act a).map (State.withTurns ps v) := by
  cases a with
  | pinConfigure p => cases p <;> rfl
  | pinWrite p l => cases p <;> rfl
  | tcall c =>
    have hanswer : (s.withTurns ps v).transport = s.transport := rfl
    cases h : s.transport.answer <;> simp only [State.act, State.tcall, hanswer, h] <;> rfl
  | _ => rfl

theorem State.effect_of_done {a : Act} {s s' : State} (h : s.act a = .done s') : s' = s.effect a := by
  rcases State.act_cases a s with hact | ⟨c, -, -, hact⟩ | ⟨c, -, -, hact⟩ <;> rw [hact] at h <;> cases h
  rfl

/-- Read data does not matter to a run that no turn of the outside interrupts. -/
theorem State.perform_withTurns (as : List Act) {s : State} (hp : s.pauses = []) (v : Half) :
    State.perform as (s.withTurns [] v) = (State.perform as s).withTurns [] v := by
  induction as generalizing s with
  | nil => rfl
  | cons a as ih =>
    have hact := State.act_withTurns a [] v s
    rw [State.perform, State.perform, hp]
    simp only [State.countAct_of_no_pauses (s := s.withTurns [] v) rfl, State.countAct_of_no_pauses hp, hact]
    cases h : s.act a with
    | done s' =>
      obtain rfl := State.effect_of_done h
      exact ih ((State.effect_pauses a s).trans hp)
    | failed s' => rfl
    | held c s' => rfl

theorem State.perform_pauses (as : List Act) {s : State} (hp : s.pauses = []) : (State.perform as s).pauses = [] := by
  have hsame : s.withTurns [] s.regRdata = s := by rw [State.withTurns, ← hp]
  have h := State.perform_withTurns as hp s.regRdata
  rw [hsame] at h
  exact congrArg State.pauses h

/-- A run interrupted after `k` acts goes on, from any read data, to where the uninterrupted run ends. -/
theorem State.resume_of_interrupted (as : List Act) {s : State} (k : Nat) (v₀ v : Half) (hw : s.work = [])
    (hp : s.pauses = []) (hwork : (State.perform as (s.withTurns [k] v₀)).work ≠ [])
    (hheld : (State.perform as (s.withTurns [k] v₀)).held = none) :
    { State.perform as (s.withTurns [k] v₀) with regRdata := v }.resume = (State.perform as s).withTurns [] v := by
  induction as generalizing s k with
  | nil => exact absurd hw hwork
  | cons a as ih =>
    cases k with
    | zero =>
      have hpaused : State.perform (a :: as) (s.withTurns [0] v₀) = { s.withTurns [] v₀ with work := a :: as } := by
        rw [State.perform]
        simp [State.withTurns, hw]
      rw [hpaused, ← State.perform_withTurns _ hp, State.resume]
      congr 1
      simp [State.withTurns, hw]
    | succ k =>
      have hact := State.act_withTurns a [k] v₀ s
      have hstep : State.perform (a :: as) (s.withTurns [k + 1] v₀) =
          match (s.act a).map (State.withTurns [k] v₀) with
          | .done s' => State.perform as s'
          | .failed s' => s'.abortTransport
          | .held c s' => { s' with held := some c, work := (a :: as) ++ s'.work } := by
        rw [← hact]
        rfl
      rw [hstep] at hwork hheld ⊢
      cases h : s.act a with
      | done s' =>
        obtain rfl := State.effect_of_done h
        rw [h] at hwork hheld
        rw [State.perform_cons_of_done hp h]
        exact ih k ((State.effect_work a s).trans hw) ((State.effect_pauses a s).trans hp) hwork hheld
      | failed s' =>
        rw [h] at hwork
        exact absurd rfl hwork
      | held c s' =>
        rw [h] at hheld
        cases hheld

/-- Settles O15: the turn is a point of the run, and no act reads the read data. -/
theorem interruptedOperationEndsTheSame : Obligations.InterruptedOperationEndsTheSame := by
  intro as s k v hw hp hwork hheld
  refine (State.resume_of_interrupted as k s.regRdata v hw hp hwork hheld).trans ?_
  have hend := State.perform_pauses as hp
  generalize State.perform as s = t at hend ⊢
  rw [State.withTurns, ← hend]

end Sys2Proof.Machine
end

section
/-! PROOFS. The wire rows and the ROM record run alone (R86 to R99, R137), and what each host operation costs (R256). -/

namespace Sys2Proof.Machine

/-- A row that is SEND_COMMAND of a byte puts that unit on the wire, in one frame. -/
theorem exec_of_sendCommandActs {s : State} (hs : s.Undisturbed) {i : Instr} {b : Byte}
    (hi : exec i s = s.micro (sendCommandActs b)) :
    exec i s = .next { s.emitted [.pin .dc false, .frameBegin, .byte b, .frameEnd] with
      dcLvl := false, frameOpen := false, transport := s.transport.after 3 } ∧
    wireFrom s.dcLvl [.pin .dc false, .frameBegin, .byte b, .frameEnd] = [(false, b)] :=
  ⟨((sendCommandActs_wire b).exec hi).1 hs, rfl⟩

/-- Settles O25: each row is SEND_COMMAND or SEND_DATA of its byte. -/
theorem wireUnitsComplete : Obligations.WireUnitsComplete := by
  intro s c hs
  refine ⟨?_, ((sendDataActs_wire c).exec rfl).1 hs, rfl⟩
  simp only [List.forall_mem_cons]
  exact ⟨exec_of_sendCommandActs hs rfl, exec_of_sendCommandActs hs rfl, exec_of_sendCommandActs hs rfl,
    exec_of_sendCommandActs hs rfl, exec_of_sendCommandActs hs rfl, exec_of_sendCommandActs hs rfl,
    exec_of_sendCommandActs hs rfl, exec_of_sendCommandActs hs rfl, exec_of_sendCommandActs hs rfl,
    exec_of_sendCommandActs hs rfl, exec_of_sendCommandActs hs rfl, nofun⟩

theorem exec_romEntry (s : State) (e : RomEntry) : exec (.romEntry e) s = s.micro (romEntryActs e) := rfl

/-- Settles O29: the record is written, then ROM_IDX advances. -/
theorem romRecordCompletes : Obligations.RomRecordCompletes := by
  intro s e hs
  have hp := hs.2.2
  rw [exec_romEntry, State.micro, State.perform_eq_effects hs, romEntryActs, State.effects_append,
    regWriteActs_effects hp, State.effects_cons (s := s.afterEvents _) hp, State.afterEvents,
    levelAfter_regWriteEvents, frameAfter_regWriteEvents, callCount_regWriteEvents]
  rfl

/-! ### Costs (R256) -/

theorem unitCount_eq_countP (es : List Event) :
    unitCount es = es.countP fun e => match e with | .byte _ => true | _ => false := length_wireFrom false es

theorem unitCount_append (es fs : List Event) : unitCount (es ++ fs) = unitCount es + unitCount fs := by
  simp only [unitCount_eq_countP, List.countP_append]

theorem frameCount_append (es fs : List Event) : frameCount (es ++ fs) = frameCount es + frameCount fs :=
  List.countP_append

theorem waitCount_append (es fs : List Event) : waitCount (es ++ fs) = waitCount es + waitCount fs :=
  List.countP_append

/-- The events of SETUP, beside those of the ROM: the pins, and two waits with a reset pin (R191). -/
theorem setupEvents_counts (cfg : Config) (rom : List RomEntry) :
    (setupEvents cfg rom).length =
      3 + (if cfg.hasRst then 6 else 0) + (if cfg.hasBl then 2 else 0) + (romEvents rom).length ∧
    unitCount (setupEvents cfg rom) = unitCount (romEvents rom) ∧
    frameCount (setupEvents cfg rom) = frameCount (romEvents rom) ∧
    waitCount (setupEvents cfg rom) = (if cfg.hasRst then 2 else 0) + waitCount (romEvents rom) := by
  simp only [setupEvents, List.length_append, unitCount_append, frameCount_append, waitCount_append]
  refine ⟨?_, ?_, ?_, ?_⟩
  · cases cfg.hasRst <;> cases cfg.hasBl <;> simp [pulseEvents] <;> omega
  · cases cfg.hasRst <;> cases cfg.hasBl <;> simp [unitCount_eq_countP, pulseEvents]
  · cases cfg.hasRst <;> cases cfg.hasBl <;> simp [frameCount, pulseEvents]
  · cases cfg.hasRst <;> cases cfg.hasBl <;> simp [waitCount, pulseEvents]

theorem setup_costs {s : State} {rom : List RomEntry} (ha : s.accepts = true) (hs : s.Undisturbed)
    (h : initRom s.cfg = some rom) :
    s.Costs .setup
      (3 + (if s.cfg.hasRst then 6 else 0) + (if s.cfg.hasBl then 2 else 0)
        + (rom.map fun e => 4 * (1 + e.data.length) + if e.delay.isSome then 1 else 0).sum)
      (rom.map fun e => 1 + e.data.length).sum (rom.map fun e => 1 + e.data.length).sum
      ((if s.cfg.hasRst then 2 else 0) + (rom.map fun e => if e.delay.isSome then 1 else 0).sum) := by
  obtain ⟨l, -, hexec⟩ := (setupCompletes s rom ha h).1 hs
  obtain ⟨hlen, hunits, hframes, hwaits⟩ := setupEvents_counts s.cfg rom
  rw [← length_romEvents, ← waitCount_romEvents, ← frameCount_romEvents]
  exact ⟨_, setupEvents s.cfg rom, hexec, rfl, hlen,
    hunits.trans ((unitCount_romEvents rom).trans (frameCount_romEvents rom).symm), hframes, hwaits⟩

theorem waitCount_runEvents (c : Half) (n : Nat) : waitCount (runEvents c n) = 0 := by
  rw [runEvents_eq]
  simp [waitCount, List.countP_map, Function.comp_def]

/-- The window, and `n` units in one frame (R164, R165). -/
theorem paintEvents_counts (codes : CmdCodes) (x₁ y₁ x₂ y₂ c : Half) (n : Nat) :
    (windowEvents codes x₁ y₁ x₂ y₂ ++ runEvents c n).length = 35 + 2 * n ∧
    unitCount (windowEvents codes x₁ y₁ x₂ y₂ ++ runEvents c n) = 11 + 2 * n ∧
    frameCount (windowEvents codes x₁ y₁ x₂ y₂ ++ runEvents c n) = 8 ∧
    waitCount (windowEvents codes x₁ y₁ x₂ y₂ ++ runEvents c n) = 0 := by
  have hlen : (windowEvents codes x₁ y₁ x₂ y₂).length = 32 := rfl
  have hunits : unitCount (windowEvents codes x₁ y₁ x₂ y₂) = 11 := rfl
  have hframes : frameCount (windowEvents codes x₁ y₁ x₂ y₂) = 7 := rfl
  have hwaits : waitCount (windowEvents codes x₁ y₁ x₂ y₂) = 0 := rfl
  rw [List.length_append, unitCount_append, frameCount_append, waitCount_append, hlen, hunits, hframes, hwaits,
    length_runEvents, unitCount_runEvents, frameCount_runEvents, waitCount_runEvents]
  exact ⟨by omega, rfl, rfl, rfl⟩

/-- An operation that emits nothing. -/
theorem State.costs_nothing {s t : State} {i : Instr} (h : exec i s = .next t) (htrace : t.trace = s.trace) :
    s.Costs i 0 0 0 0 := ⟨t, [], h, by simp [htrace], rfl, rfl, rfl, rfl⟩

/-- The no-op PIXEL (R167). -/
theorem exec_pixel_of_not_written {s : State} {x y : Half} (ha : s.accepts = true) (hp : s.pauses = [])
    (h : s.ready = false ∨ inPanel x y = false) (r g b : Byte) :
    ∃ l : Latches, exec (.pixel x y r g b) s = .next { s with latches := l, opDone := true, opStatus := statusOk } :=
  ⟨_, by rw [exec_pixel, pixelActs_of_not_written h, State.operate_complete ha hp]⟩

/-- A PIXEL that is written: the events of the window and of one unit (R164). -/
theorem exec_pixel_of_written {s : State} {x y : Half} (ha : s.accepts = true) (hs : s.Undisturbed)
    (hr : s.ready = true) (hin : inPanel x y = true) (r g b : Byte) :
    exec (.pixel x y r g b) s = .next {
      s.emitted (windowEvents s.cfg.codes x y x y ++ runEvents (toNative s.cfg.swapRb r g b) 1) with
        latches := ⟨0x5, x, y, r, g, b⟩, cvNative := toNative s.cfg.swapRb r g b,
        nativeLatch := toNative s.cfg.swapRb r g b, dcLvl := true, frameOpen := false, runCnt := 0,
        opDone := true, opStatus := statusOk, transport := s.transport.after 29 } :=
  ((pixelWritesItsUnit s x y r g b ha).2 hr ((inPanel_iff x y).mp hin)).1 hs

/-- Settles O38: each operation's events are known, and are counted. -/
theorem eventCosts : Obligations.EventCosts := by
  intro s rom x y r g b u v ha hs h
  have hp := hs.2.2
  have hsetup := setup_costs ha hs h
  refine ⟨hsetup, fun t href => ⟨fun hrst hbl => ?_, fun hrst hbl => ?_⟩, fun hr hin => ?_, fun hr => ?_, fun hn => ?_,
    fun hn => ?_, ?_, ?_, ?_⟩
  -- The shares of the seven entries are closed sums, which evaluate to the numbers stated.
  · simp only [href, sum_map_referenceRom, hrst, hbl] at hsetup
    exact hsetup
  · simp only [href, sum_map_referenceRom, hrst, hbl] at hsetup
    exact hsetup
  · obtain ⟨hlen, hunits, hframes, hwaits⟩ := paintEvents_counts s.cfg.codes x y x y (toNative s.cfg.swapRb r g b) 1
    exact ⟨_, _, exec_pixel_of_written ha hs hr hin r g b, rfl, hlen, hunits, hframes, hwaits⟩
  · obtain ⟨l, -, -, -, -, hexec⟩ := ((fillWritesOneRun s r g b ha).2 hr).1 hs
    obtain ⟨hlen, hunits, hframes, hwaits⟩ :=
      paintEvents_counts s.cfg.codes 0 0 239 239 (toNative s.cfg.swapRb r g b) 57600
    exact ⟨_, _, hexec, rfl, hlen, hunits, hframes, hwaits⟩
  · obtain ⟨l, hexec⟩ := exec_pixel_of_not_written ha hp hn r g b
    exact State.costs_nothing hexec rfl
  · obtain ⟨l, hexec⟩ := (fillWritesOneRun s r g b ha).1 hp hn
    exact State.costs_nothing hexec rfl
  · cases hr : s.ready with
    | false =>
      obtain ⟨l, -, hexec⟩ := (updateReports s ha hp).1 hr
      exact ⟨_, [.warn .notReady], hexec, rfl, rfl, rfl, rfl, rfl⟩
    | true =>
      obtain ⟨l, -, hexec⟩ := (updateReports s ha hp).2 hr
      exact State.costs_nothing hexec rfl
  · obtain ⟨l, -, hexec⟩ := dumpConfigReports s ha hp
    exact ⟨_, _, hexec, rfl, rfl, rfl, rfl, rfl⟩
  · have hrejected := illegalOpcodesRejected s u v ha hp
    simp only [List.forall_mem_cons] at hrejected ⊢
    obtain ⟨h0, h7, h8F, -⟩ := hrejected
    obtain ⟨l, -, -, -, -, hconvert⟩ := (conversionsComplete s r g b hp).2 ha
    exact ⟨State.costs_nothing hconvert rfl, State.costs_nothing h0 rfl, State.costs_nothing h7 rfl,
      State.costs_nothing h8F rfl, nofun⟩

end Sys2Proof.Machine
end

section
/-! PROOFS. The panel after PIXEL, FILL and SETUP (R168, R245). -/

namespace Sys2Proof.Machine

/-- A pixel inside the panel is a valid window of one cell (R160). -/
theorem windowValid_of_inPanel {x y : Half} (h : inPanel x y = true) :
    windowValid (x, x) (y, y) = true ∧ x.toNat < 240 ∧ y.toNat < 240 := by
  have hnat : ∀ v : Half, 0 ≤ v.toInt → v.toInt ≤ 239 → v.toNat < 240 := by
    intro v h₀ h₁
    rw [BitVec.toInt_eq_toNat_cond] at h₀ h₁
    omega
  obtain ⟨hx₀, hx₁, hy₀, hy₁⟩ := (inPanel_iff x y).mp h
  have hx := hnat x hx₀ hx₁
  have hy := hnat y hy₀ hy₁
  exact ⟨by simp [windowValid, panelSide, hx, hy], hx, hy⟩

/-- Settles O39: the panel painted by one unit into a window of one cell. -/
theorem pixelEndState : Obligations.PixelEndState := by
  intro s x y r g b ha hs hr hd hready hin
  obtain ⟨hvalid, hx, hy⟩ := windowValid_of_inPanel hin
  refine ⟨_, exec_pixel_of_written ha hs hr hin r g b, ?_⟩
  have hpainted := Ghost.painted_window_run (c := toNative s.cfg.swapRb r g b) hd hready hvalid s.dcLvl 1
  have hsize : windowSize x.toNat y.toNat x.toNat y.toNat = 1 := by simp
  have hcell : ∀ x' y', inWindow x.toNat y.toNat x.toNat y.toNat x' y' → x' = x.toNat ∧ y' = y.toNat := by
    rintro x' y' ⟨h₁, h₂, h₃, h₄⟩
    omega
  refine ⟨?_, fun x' y' hx' _ hne => ?_, fun a h₁ h₂ => ?_, ?_, ?_, hpainted.ready⟩
  · have hinside := hpainted.inside x.toNat y.toNat ⟨le_rfl, le_rfl, le_rfl, le_rfl⟩
    rwa [if_pos (by simp [scanIndex])] at hinside
  · refine hpainted.gramAt_of_not_inWindow hx' fun hin' => hne ?_
    obtain ⟨rfl, rfl⟩ := hcell x' y' hin'
    rfl
  · refine hpainted.outside a fun x' y' hin' => ?_
    obtain ⟨rfl, rfl⟩ := hcell x' y' hin'
    exact ⟨h₁, h₂⟩
  · exact hpainted.cur_of_windowSize_le hsize.le
  · exact hpainted.faults hsize.ge

/-- Settles O40: the panel painted by as many units as it has cells. -/
theorem fillEndState : Obligations.FillEndState := by
  intro s r g b ha hs hr hd hready
  obtain ⟨l, -, -, -, -, hexec⟩ := ((fillWritesOneRun s r g b ha).2 hr).1 hs
  have hvalid : windowValid ((0 : Half), (239 : Half)) ((0 : Half), (239 : Half)) = true := by decide
  have hpainted := Ghost.painted_window_run (c := toNative s.cfg.swapRb r g b) hd hready hvalid s.dcLvl 57600
  -- From here on the trace is a variable: nothing below may evaluate its 115235 events.
  generalize windowEvents s.cfg.codes 0 0 239 239 ++ runEvents (toNative s.cfg.swapRb r g b) 57600 = evs
    at hexec hpainted
  refine ⟨_, hexec, ?_⟩
  have hsize : windowSize (0 : Half).toNat (0 : Half).toNat (239 : Half).toNat (239 : Half).toNat = 57600 := by simp
  have hwindow : ∀ x y, inWindow (0 : Half).toNat (0 : Half).toNat (239 : Half).toNat (239 : Half).toNat x y ↔
      x < 240 ∧ y < 240 := by
    intro x y
    simp only [inWindow, BitVec.reduceToNat]
    omega
  refine ⟨fun x y hx hy => ?_, fun a ha => ?_, ?_, ?_, hpainted.ready⟩
  · have hin := (hwindow x y).mpr ⟨hx, hy⟩
    have hinside := hpainted.inside x y hin
    rwa [if_pos (hsize ▸ scanIndex_lt_windowSize hin)] at hinside
  · refine hpainted.outside a fun x y hin => ?_
    obtain ⟨hx, hy⟩ := (hwindow x y).mp hin
    simp only [cellAddr, panelSide]
    omega
  · exact hpainted.cur_of_windowSize_le hsize.le
  · exact hpainted.faults hsize.ge

/-- What the panel makes of SETUP's trace: the pulse resets it, the ROM's trace follows, the pins do not matter. -/
theorem Ghost.observeAll_setupEvents (codes : CmdCodes) (dc : Bool) (cfg : Config) (rom : List RomEntry) (g : Ghost) :
    Ghost.observeAll codes dc (setupEvents cfg rom) g =
      Ghost.observeAll codes false (romEvents rom) (if cfg.hasRst then ⟨Panel.initial, g.faults⟩ else g) := by
  have hbacklight : ∀ (dc : Bool) (g : Ghost),
      Ghost.observeAll codes dc (if cfg.hasBl then [.pinCfg .bl, .pin .bl true] else []) g = g := by
    intro dc g
    cases cfg.hasBl <;> rfl
  rw [setupEvents, Ghost.observeAll_append, Ghost.observeAll_append, hbacklight, Ghost.observeAll_append,
    List.foldl_append]
  cases hrst : cfg.hasRst with
  | false => rfl
  | true =>
    simp only [if_true]
    rw [Ghost.observeAll_append, Ghost.observeAll_pulseEvents]
    rfl

/-- Settles O34: the pulse makes P0, from which the ROM leaves a good panel. -/
theorem setupMakesThePanelReady : Obligations.SetupMakesThePanelReady := by
  intro s rom ha hs h hquiet hrst
  obtain ⟨l, -, hexec⟩ := (setupCompletes s rom ha h).1 hs
  refine ⟨_, hexec, rfl, ?_⟩
  have hpanel := Ghost.observeAll_setupEvents s.cfg.codes s.dcLvl s.cfg rom s.ghost
  rw [hrst, if_pos rfl] at hpanel
  obtain ⟨hfaults, hready⟩ := hquiet false ⟨Panel.initial, s.ghost.faults⟩ rfl rfl rfl rfl
  rw [← hpanel] at hfaults hready
  exact ⟨hready, hfaults⟩

end Sys2Proof.Machine
end

section
/-! PROOFS. A command byte to any panel (R57, R58). -/

namespace Sys2Proof.Machine

theorem Ghost.byte_of_corrupt {g : Ghost} (h : g.panel.status = .corrupt) (codes : CmdCodes) (dc : Bool) (b : Byte) :
    g.byte codes dc b = g := by
  simp [Ghost.byte, h]

theorem Ghost.byte_of_held {g : Ghost} (hlive : g.panel.status = .live) (hheld : g.panel.rstHeld = true)
    (codes : CmdCodes) (dc : Bool) (b : Byte) : g.byte codes dc b = g.addFault .byteDuringReset := by
  simp [Ghost.byte, hlive, hheld]

/-- SETTLE(b) by its values; that they come in this order needs codes that differ (R58). -/
theorem CmdCodes.settleBound_eq_of_distinct {codes : CmdCodes} (hd : codes.Distinct) (b : Byte) :
    settleBound codes b = (if b = codes.swreset ∨ b = codes.slpout ∨ b = codes.dispon then 120
      else if b = codes.invon ∨ b = codes.noron then 10 else 0) := by
  have hne : codes.dispon ≠ codes.invon ∧ codes.dispon ≠ codes.noron := by
    simp only [CmdCodes.Distinct, CmdCodes.all, List.nodup_cons, List.mem_cons, not_or] at hd
    tauto
  simp only [settleBound]
  grind

/-- SWRESET returns every field to its P0 value, the panel taking the command all the same (R56, R58). -/
theorem Ghost.byte_swreset {codes : CmdCodes} {g : Ghost} (hne : codes.swreset ≠ codes.ramwr)
    (hlive : g.panel.status = .live) (hrst : g.panel.rstHeld = false) :
    (g.byte codes false codes.swreset).panel = { Panel.initial with
      cmd := some codes.swreset, settle := settleBound codes codes.swreset } := by
  rw [Ghost.byte_of_live hlive hrst]
  simp [Ghost.command, Ghost.dropOddByte_panel, Ghost.checkSettle_panel, Panel.takeCommand, hne, Ghost.setSettle,
    Panel.reset, Panel.initial, hlive, hrst]

/-- RAMWR moves the cursor and ends freshness; all else is as after any other command (R58, R60). -/
theorem Ghost.byte_ramwr_panel_eq {codes : CmdCodes} {g : Ghost} (hne : codes.ramwr ≠ codes.swreset)
    (hlive : g.panel.status = .live) (hrst : g.panel.rstHeld = false) :
    (g.byte codes false codes.ramwr).panel = { g.panel with
      pend := none, cmd := some codes.ramwr, args := [], colFresh := false, rowFresh := false,
      cur := (g.byte codes false codes.ramwr).panel.cur, settle := settleBound codes codes.ramwr } := by
  rw [Ghost.byte_ramwr hne hlive hrst]
  simp only [Ghost.setSettle, Ghost.ramwrStart]
  rw [Ghost.openStream_panel, Ghost.useWindow_panel]
  rfl

/-- Every fault a command that opens no stream adds (R57, R58). -/
theorem Ghost.mem_byte_command {codes : CmdCodes} {g : Ghost} {c : Byte} (hlive : g.panel.status = .live)
    (hrst : g.panel.rstHeld = false) (hc : c ≠ codes.ramwr) (f : GhostFault) :
    f ∈ (g.byte codes false c).faults ↔ f ∈ g.faults ∨ (f = .settleViolation ∧ 0 < g.panel.settle) ∨
      (f = .oddPixelByte ∧ g.panel.pend.isSome = true) := by
  rw [Ghost.byte_of_live hlive hrst]
  simp [Ghost.command, Ghost.setSettle, hc, Ghost.checkSettle_panel, or_assoc]

/-- Settles O45: the panel after SWRESET, after RAMWR and after any other command is known field by field. -/
theorem commandByteObserved : Obligations.CommandByteObserved := by
  intro codes g b hd
  have hne := CmdCodes.settleBound_of_distinct hd (c := codes.ramwr) (by simp)
  refine ⟨fun h dc => Ghost.byte_of_corrupt h codes dc b, fun hlive hheld dc => ?_, fun hlive hrst => ?_⟩
  · simp [Ghost.byte_of_held hlive hheld, or_comm]
  rw [← CmdCodes.settleBound_eq_of_distinct hd b]
  have hfaults := Ghost.mem_byte_command hlive hrst (codes := codes) (c := b)
  by_cases hw : b = codes.ramwr
  · subst hw
    have hpanel := Ghost.byte_ramwr_panel_eq hne.1 hlive hrst
    rw [hpanel]
    simp [hne.1, hlive, hrst, Ghost.mem_byte_ramwr hne.1 hlive hrst]
  by_cases hsw : b = codes.swreset
  · subst hsw
    rw [Ghost.byte_swreset hw hlive hrst]
    simp [hfaults hw, hw, Panel.initial]
  · have hpanel := congrArg Ghost.panel (Ghost.byte_command_of_live hlive hrst hw hsw)
    rw [hpanel]
    simp [hfaults hw, hw, hsw, hlive, hrst]

end Sys2Proof.Machine
end

section
/-! PROOFS. What a data byte stores (R57, R59, R61 to R63). -/

namespace Sys2Proof.Machine

theorem Ghost.storeTarget_eq_some {codes : CmdCodes} {g : Ghost} {x y : Nat} :
    g.storeTarget codes = some (x, y) ↔ g.panel.status = .live ∧ g.panel.rstHeld = false ∧
      g.panel.pend.isSome = true ∧ g.panel.cur = .cell x y ∧ g.panel.cmd = some codes.ramwr := by
  unfold Ghost.storeTarget
  split
  · next h x' y' hlive hrst hpend hcur => simp [hlive, hrst, hpend, hcur, and_comm]
  · next hother =>
    refine ⟨nofun, fun ⟨hlive, hrst, hpend, hcur, _⟩ => ?_⟩
    obtain ⟨h, hpend⟩ := Option.isSome_iff_exists.mp hpend
    exact absurd hcur (hother h x y hlive hrst hpend)

/-- A data byte of a pixel stream, whatever is left to settle (R57, R59). -/
theorem Ghost.byte_of_stream {codes : CmdCodes} {g : Ghost} (hlive : g.panel.status = .live)
    (hrst : g.panel.rstHeld = false) (hcmd : g.panel.cmd = some codes.ramwr) (b : Byte) :
    g.byte codes true b = g.checkSettle.pixelByte b := by
  simp [Ghost.byte_of_live hlive hrst, Ghost.data, Ghost.checkSettle_panel, hcmd]

/-- A first byte is kept; a second completes a pixel, which is stored at a cursor at a cell only (R61). -/
theorem Ghost.pixelByte_panel (b : Byte) (g : Ghost) :
    (g.pixelByte b).panel = match g.panel.pend, g.panel.cur with
      | none, _ => { g.panel with pend := some b }
      | some h, .cell x y =>
        { ({ g.panel with pend := none } : Panel).gramWrite x y (joinBytes h b) with
          pend := none, cur := g.panel.advance x y }
      | some _, _ => { g.panel with pend := none } := by
  unfold Ghost.pixelByte
  cases g.panel.pend with
  | none => rfl
  | some h =>
    unfold Ghost.pixel
    cases g.panel.cur <;> rfl

/-- The fault a pixel byte adds (R61). -/
theorem Ghost.mem_pixelByte (f : GhostFault) (b : Byte) (g : Ghost) :
    f ∈ (g.pixelByte b).faults ↔
      f ∈ g.faults ∨ (f = .windowOverrun ∧ g.panel.pend.isSome = true ∧ g.panel.cur = .done) := by
  unfold Ghost.pixelByte
  cases hpend : g.panel.pend with
  | none => simp
  | some h =>
    unfold Ghost.pixel
    cases hcur : g.panel.cur <;> simp [or_comm]

/-- A data byte that completes no pixel at a cursor leaves display memory alone, in any panel (R57, R59, R61). -/
theorem Ghost.byte_gram_of_no_store {codes : CmdCodes} {g : Ghost} (h : g.storeTarget codes = none) (b : Byte) :
    (g.byte codes true b).panel.gram = g.panel.gram := by
  cases hstatus : g.panel.status with
  | corrupt => rw [Ghost.byte_of_corrupt hstatus]
  | live =>
    cases hrst : g.panel.rstHeld with
    | true => rw [Ghost.byte_of_held hstatus hrst, Ghost.addFault_panel]
    | false =>
      rcases hcmd : g.panel.cmd with _ | c
      · rw [Ghost.byte_without_command hstatus hrst hcmd, Ghost.addFault_panel, Ghost.checkSettle_panel]
      by_cases hc : c = codes.ramwr
      · rw [Ghost.byte_of_stream hstatus hrst (hc ▸ hcmd), Ghost.pixelByte_panel, Ghost.checkSettle_panel]
        split
        · rfl
        · next x y hpend hcur =>
          rw [Ghost.storeTarget_eq_some.mpr ⟨hstatus, hrst, by simp [hpend], hcur, hc ▸ hcmd⟩] at h
          cases h
        · rfl
      · rw [Ghost.byte_param ⟨hstatus, hrst, hcmd⟩ hc, (Ghost.paramByte_tables ..).1, Ghost.checkSettle_panel]

/-- A data byte that completes a pixel at a cell stores it there, known only under format 0x55 (R61, R62). -/
theorem Ghost.byte_gram_of_store {codes : CmdCodes} {g : Ghost} {x y : Nat} (h : g.storeTarget codes = some (x, y))
    (b : Byte) : ∃ hi, g.panel.pend = some hi ∧ (g.byte codes true b).panel.gram =
      g.panel.gram.writeCell x y (if g.panel.colmod = some colmodData then some (joinBytes hi b) else none) := by
  obtain ⟨hlive, hrst, hpend, hcur, hcmd⟩ := Ghost.storeTarget_eq_some.mp h
  obtain ⟨hi, hpend⟩ := Option.isSome_iff_exists.mp hpend
  refine ⟨hi, hpend, ?_⟩
  rw [Ghost.byte_of_stream hlive hrst hcmd, Ghost.pixelByte_panel, Ghost.checkSettle_panel, hpend, hcur]
  rfl

/-! ### SEND_DATA and WIRE_DATA -/

/-- The panel after a data unit. -/
theorem exec_dataUnit {s : State} (hs : s.Undisturbed) (d : Byte) {i : Instr}
    (hi : i ∈ [Instr.sendData d, .wireData d]) :
    ∃ t, exec i s = .next t ∧ t.Undisturbed ∧ t.cfg = s.cfg ∧ t.ghost = s.ghost.byte s.cfg.codes true d := by
  have hexec : exec i s = s.micro (sendDataActs d) := by
    simp only [List.mem_cons, List.not_mem_nil, or_false] at hi
    rcases hi with rfl | rfl <;> rfl
  exact ⟨_, ((sendDataActs_wire d).exec hexec).1 hs, hs.afterEvents (dataEvents d), rfl, rfl⟩

/-- Settles O48: the frame by the cell a data byte stores to, the stream by the panel after a pixel byte. -/
theorem dataUnitMemoryFrame : Obligations.DataUnitMemoryFrame := by
  refine ⟨fun s d hs i hi => ?_, fun s h d hs => ?_⟩
  · obtain ⟨t, hexec, -, -, hghost⟩ := exec_dataUnit hs d hi
    refine ⟨t, hexec, ?_⟩
    rw [hghost]
    refine ⟨fun hnone a => by rw [Ghost.byte_gram_of_no_store hnone], fun x y hstore => ?_, fun hlive hrst hcmd => ?_⟩
    · obtain ⟨hi, hpend, hgram⟩ := Ghost.byte_gram_of_store hstore d
      rw [Ghost.gramAt, hgram]
      refine ⟨fun a h₁ h₂ => Memory.readByte_writeCell_other h₁ h₂ _ _, fun h hh => ?_⟩
      obtain rfl := Option.some.inj (hpend.symm.trans hh)
      rw [Memory.readCell_writeCell_same]
      rfl
    · rw [Ghost.byte_of_stream hlive hrst hcmd]
      have hpanel := Ghost.pixelByte_panel d s.ghost.checkSettle
      rw [Ghost.checkSettle_panel] at hpanel
      refine ⟨fun f => ?_, fun hpend => ?_, fun hpend hcur => ?_, fun x y x₁ x₂ y₁ y₂ hpend hcur hcol hrow => ?_⟩
      · rw [Ghost.mem_pixelByte, Ghost.mem_checkSettle, Ghost.checkSettle_panel, or_assoc]
      · rw [hpanel, hpend]
      · obtain ⟨hi, hpend⟩ := Option.isSome_iff_exists.mp hpend
        rcases hcur with hcur | hcur <;> rw [hpanel, hpend, hcur]
      · obtain ⟨hi, hpend⟩ := Option.isSome_iff_exists.mp hpend
        rw [hpanel, hpend, hcur]
        simp only [Panel.advance, hcol, hrow]
        rfl
  · obtain ⟨t₁, h₁, hs₁, hcfg, hghost₁⟩ := exec_dataUnit hs h (i := .sendData h) (by simp)
    obtain ⟨t₂, h₂, -, -, hghost₂⟩ := exec_dataUnit hs₁ d (i := .sendData d) (by simp)
    refine ⟨_, t₁, t₂, (sendData16Completes s (h ++ d)).1 hs, h₁, h₂, ?_⟩
    rw [hghost₂, hghost₁, hcfg]
    change (s.ghost.byte s.cfg.codes true (hiByte (joinBytes h d))).byte s.cfg.codes true (loByte (joinBytes h d)) = _
    rw [hiByte_joinBytes, loByte_joinBytes]

end Sys2Proof.Machine
end

section
/-! PROOFS. Which bytes of display memory a stream of events leaves alone (R56, R58, R61 to R63). -/

namespace Sys2Proof.Machine

theorem Ghost.ramwrStart_gram (g : Ghost) : g.ramwrStart.panel.gram = g.panel.gram := by
  rw [Ghost.ramwrStart, Ghost.openStream_panel, Ghost.useWindow_panel]

/-- A command stores nothing; SWRESET makes display memory unknown (R58). -/
theorem Ghost.command_gram (codes : CmdCodes) (b : Byte) (g : Ghost) :
    (g.command codes b).panel.gram = if b = codes.swreset then [] else g.panel.gram := by
  have hstart : ∀ g : Ghost, (if b = codes.ramwr then g.ramwrStart else g).panel.gram = g.panel.gram := by
    intro g
    split
    · exact g.ramwrStart_gram
    · rfl
  simp only [Ghost.command, Ghost.setSettle, hstart, Ghost.dropOddByte_panel, Panel.takeCommand]
  split <;> rfl

/-- A command byte to any panel (R57, R58). -/
theorem Ghost.byte_command_gram (codes : CmdCodes) (b : Byte) (g : Ghost) :
    (g.byte codes false b).panel.gram =
      if b = codes.swreset ∧ g.panel.status = .live ∧ g.panel.rstHeld = false then [] else g.panel.gram := by
  cases hstatus : g.panel.status with
  | corrupt => simp [Ghost.byte_of_corrupt hstatus]
  | live =>
    cases hrst : g.panel.rstHeld with
    | true => simp [Ghost.byte_of_held hstatus hrst]
    | false => simp [Ghost.byte_of_live hstatus hrst, Ghost.command_gram, Ghost.checkSettle_panel]

theorem Ghost.resetBy_command (codes : CmdCodes) (b : Byte) (g : Ghost) :
    g.resetBy codes false (.byte b) = true ↔
      b = codes.swreset ∧ g.panel.status = .live ∧ g.panel.rstHeld = false := by
  simp [Ghost.resetBy, and_assoc]

/-- A byte outside the cell a data byte stores to is unknown after a reset, and as it was after any other event. -/
theorem Ghost.readByte_observe {codes : CmdCodes} {dc : Bool} {e : Event} {g : Ghost} {a : Nat}
    (h : ∀ b, dc = true → e = .byte b →
      ∀ xy ∈ g.storeTarget codes, a ≠ cellAddr xy.1 xy.2 ∧ a ≠ cellAddr xy.1 xy.2 + 1) :
    (g.observe codes dc e).panel.gram.readByte a = if g.resetBy codes dc e then none else g.panel.gram.readByte a := by
  cases e with
  | byte b =>
    cases dc with
    | false =>
      simp only [Ghost.observe, Ghost.byte_command_gram, Ghost.resetBy_command]
      split <;> rfl
    | true =>
      rcases hstore : g.storeTarget codes with _ | ⟨x, y⟩
      · simp [Ghost.observe, Ghost.resetBy, Ghost.byte_gram_of_no_store hstore]
      · obtain ⟨hi, -, hgram⟩ := Ghost.byte_gram_of_store hstore b
        obtain ⟨h₁, h₂⟩ := h b rfl rfl (x, y) hstore
        simp [Ghost.observe, Ghost.resetBy, hgram, Memory.readByte_writeCell_other h₁ h₂]
  | pin p l => cases p <;> cases l <;> rfl
  | _ => rfl

/-- The memory frame of a stream of events. -/
theorem Ghost.readByte_observeAll {codes : CmdCodes} {dc : Bool} {es : List Event} {g : Ghost} {a : Nat}
    (h : ∀ xy ∈ g.storedCells codes dc es, a ≠ cellAddr xy.1 xy.2 ∧ a ≠ cellAddr xy.1 xy.2 + 1) :
    (Ghost.observeAll codes dc es g).panel.gram.readByte a =
      if g.resetIn codes dc es then none else g.panel.gram.readByte a := by
  induction es generalizing dc g with
  | nil => rfl
  | cons e es ih =>
    simp only [Ghost.storedCells, List.mem_append] at h
    rw [Ghost.observeAll, ih fun xy hxy => h xy (.inr hxy), Ghost.resetIn]
    cases hlater : (g.observe codes dc e).resetIn codes (dcAfter dc e) es with
    | true => simp
    | false =>
      rw [Bool.or_false, if_neg Bool.false_ne_true]
      refine Ghost.readByte_observe fun b hdc he xy hxy => h xy (.inl ?_)
      subst hdc he
      rw [hlater]
      exact Option.mem_toList.mpr hxy

/-- Settles O49: each of them leaves the panel that its events leave. -/
theorem streamMemoryFrame : Obligations.StreamMemoryFrame := by
  intro s w c x y n e rom r g b hs h p hp
  have hframe : ∀ {i : Instr} {evs : List Event}, (∃ t, exec i s = .next t ∧ t.ghost = s.observed evs) →
      ∃ t, exec i s = .next t ∧ ∀ a, (∀ xy ∈ s.ghost.storedCells s.cfg.codes s.dcLvl evs,
          a ≠ cellAddr xy.1 xy.2 ∧ a ≠ cellAddr xy.1 xy.2 + 1) →
        t.ghost.panel.gram.readByte a =
          if s.ghost.resetIn s.cfg.codes s.dcLvl evs then none else s.ghost.panel.gram.readByte a := by
    rintro i evs ⟨t, hexec, hghost⟩
    exact ⟨t, hexec, fun a ha => hghost ▸ Ghost.readByte_observeAll ha⟩
  apply hframe
  simp only [List.mem_append, List.mem_cons, List.not_mem_nil, or_false] at hp
  rcases hp with ((rfl | rfl | rfl | rfl | rfl) | hp) | hp
  · exact ⟨_, (sendData16Completes s w).1 hs, rfl⟩
  · exact ⟨_, (sendColorRunCompletes s c n).1 hs, rfl⟩
  · exact ⟨_, (regWriteCompletes s e).1 hs, rfl⟩
  · exact ⟨_, romRecordCompletes s e hs, rfl⟩
  · exact ⟨_, (runInitCompletes s rom h).1 hs, rfl⟩
  · split at hp
    · next ha =>
      obtain rfl := List.mem_singleton.mp hp
      obtain ⟨l, -, hexec⟩ := (setupCompletes s rom ha h).1 hs
      exact ⟨_, hexec, rfl⟩
    · cases hp
  · split at hp
    · next ha =>
      obtain ⟨ha, hr⟩ := Bool.and_eq_true_iff.mp ha
      simp only [List.mem_cons, List.not_mem_nil, or_false] at hp
      rcases hp with rfl | rfl
      · obtain ⟨l, -, -, -, -, hexec⟩ := ((fillWritesOneRun s r g b ha).2 hr).1 hs
        -- The trace stays a variable: its 115235 events are not to be evaluated.
        simp only [operationEvents]
        generalize windowEvents s.cfg.codes 0 0 239 239 ++ runEvents (toNative s.cfg.swapRb r g b) 57600 = evs
          at hexec ⊢
        exact ⟨_, hexec, rfl⟩
      · cases hin : inPanel x y with
        | true => exact ⟨_, exec_pixel_of_written ha hs hr hin r g b, by simp only [operationEvents, hin]; rfl⟩
        | false =>
          obtain ⟨l, hexec⟩ := exec_pixel_of_not_written ha hs.2.2 (.inr hin) r g b
          exact ⟨_, hexec, by simp only [operationEvents, hin]; rfl⟩
    · cases hp

end Sys2Proof.Machine
end

section
/-! PROOFS. What stores nothing (R56, R58, R59). -/

namespace Sys2Proof.Machine

/-- The panel takes no pixel bytes: it ignores bytes, or its last command is not RAMWR. -/
def Ghost.NoStream (codes : CmdCodes) (g : Ghost) : Prop :=
  g.panel.status = .live → g.panel.rstHeld = false → g.panel.cmd ≠ some codes.ramwr

/-- `g` is in no stream and shows the display memory of `g₀`. -/
def Ghost.StoredNothing (codes : CmdCodes) (g₀ g : Ghost) : Prop := g.NoStream codes ∧ g.panel.gram = g₀.panel.gram

section
variable {codes : CmdCodes} {g₀ g : Ghost}

theorem Ghost.NoStream.storeTarget (h : g.NoStream codes) : g.storeTarget codes = none := by
  refine Option.eq_none_iff_forall_not_mem.mpr fun ⟨x, y⟩ hstore => ?_
  obtain ⟨hlive, hrst, -, -, hcmd⟩ := Ghost.storeTarget_eq_some.mp hstore
  exact h hlive hrst hcmd

theorem Ghost.NoStream.data (h : g.NoStream codes) (b : Byte) : (g.byte codes true b).NoStream codes := by
  cases hstatus : g.panel.status with
  | corrupt => rwa [Ghost.byte_of_corrupt hstatus]
  | live =>
    cases hrst : g.panel.rstHeld with
    | true => rwa [Ghost.byte_of_held hstatus hrst]
    | false =>
      intro _ _
      rcases hcmd : g.panel.cmd with _ | c
      · simp [Ghost.byte_without_command hstatus hrst hcmd, Ghost.checkSettle_panel, hcmd]
      · have hc : c ≠ codes.ramwr := fun hc => h hstatus hrst (hc ▸ hcmd)
        rw [Ghost.byte_param ⟨hstatus, hrst, hcmd⟩ hc, (Ghost.paramByte_tables ..).2.1, Ghost.checkSettle_panel, hcmd]
        simpa using hc

theorem Ghost.StoredNothing.data (h : g₀.StoredNothing codes g) (b : Byte) :
    g₀.StoredNothing codes (g.byte codes true b) :=
  ⟨h.1.data b, (Ghost.byte_gram_of_no_store h.1.storeTarget b).trans h.2⟩

/-- A command that is no RAMWR and no SWRESET ends any stream. -/
theorem Ghost.storedNothing_command {c : Byte} (hsw : c ≠ codes.swreset) (hw : c ≠ codes.ramwr)
    (h : g.panel.gram = g₀.panel.gram) : g₀.StoredNothing codes (g.byte codes false c) := by
  refine ⟨?_, by rw [Ghost.byte_command_gram, if_neg fun hreset => hsw hreset.1, h]⟩
  intro hlive' hrst'
  cases hstatus : g.panel.status with
  | corrupt =>
    rw [Ghost.byte_of_corrupt hstatus, hstatus] at hlive'
    cases hlive'
  | live =>
    cases hrst : g.panel.rstHeld with
    | true =>
      rw [Ghost.byte_of_held hstatus hrst, Ghost.addFault_panel, hrst] at hrst'
      cases hrst'
    | false =>
      rw [Ghost.byte_command_of_live hstatus hrst hw hsw]
      simpa using hw

/-- The payload and the delay of a register write, after its command (R136). -/
theorem Ghost.StoredNothing.payload (h : g₀.StoredNothing codes g) (dc : Bool) (data : List Byte) (waits : List Event)
    (hwaits : ∀ dc g, (Ghost.observeAll codes dc waits g).panel.gram = g.panel.gram) :
    (Ghost.observeAll codes dc ((data.map dataEvents).flatten ++ waits) g).panel.gram = g₀.panel.gram := by
  induction data generalizing g dc with
  | nil => exact (hwaits dc g).trans h.2
  | cons b data ih => exact ih (h.data b) true

end

theorem Ghost.observeAll_regWriteEvents_gram {codes : CmdCodes} {e : RomEntry} (hsw : e.cmd ≠ codes.swreset)
    (hw : e.cmd ≠ codes.ramwr) (dc : Bool) (g : Ghost) :
    (Ghost.observeAll codes dc (regWriteEvents e) g).panel.gram = g.panel.gram := by
  rw [regWriteEvents, List.append_assoc]
  refine (Ghost.storedNothing_command hsw hw rfl).payload false e.data _ fun dc g => ?_
  cases e.delay <;> rfl

/-- CASET and RASET, each with its operands, then RAMWR, which stores nothing by itself (R161). -/
theorem Ghost.observeAll_windowEvents_gram {codes : CmdCodes} (hd : codes.Distinct) (dc : Bool) (x₁ y₁ x₂ y₂ : Half)
    (g : Ghost) : (Ghost.observeAll codes dc (windowEvents codes x₁ y₁ x₂ y₂) g).panel.gram = g.panel.gram := by
  obtain ⟨⟨hcaset, hraset, -⟩, -⟩ := CmdCodes.ne_of_distinct hd
  obtain ⟨hcaset', -⟩ := CmdCodes.settleBound_of_distinct hd (c := codes.caset) (by simp)
  obtain ⟨hraset', -⟩ := CmdCodes.settleBound_of_distinct hd (c := codes.raset) (by simp)
  obtain ⟨hramwr', -⟩ := CmdCodes.settleBound_of_distinct hd (c := codes.ramwr) (by simp)
  have hcolumns := (((Ghost.storedNothing_command (g := g) hcaset' hcaset rfl).data (hiByte x₁)).data (loByte x₁)
    |>.data (hiByte x₂)).data (loByte x₂)
  have hrows := (((Ghost.storedNothing_command hraset' hraset hcolumns.2).data (hiByte y₁)).data (loByte y₁)
    |>.data (hiByte y₂)).data (loByte y₂)
  exact (Ghost.byte_command_gram codes codes.ramwr _).trans ((if_neg fun h => hramwr' h.1).trans hrows.2)

/-- The panel after a command unit. -/
theorem exec_commandUnit {s : State} (hs : s.Undisturbed) {i : Instr} {b : Byte}
    (hi : exec i s = s.micro (sendCommandActs b)) :
    ∃ t, exec i s = .next t ∧ t.ghost = s.ghost.byte s.cfg.codes false b :=
  ⟨_, (exec_of_sendCommandActs hs hi).1, rfl⟩

/-- Settles O50: a command, a window and an entry outside any stream store nothing; SWRESET and the pulse forget all. -/
theorem commandMemoryFrame : Obligations.CommandMemoryFrame := by
  intro s b e x₁ y₁ x₂ y₂ hs hd hb hsw hw
  have hcommand : ∀ {i : Instr} {c : Byte}, exec i s = s.micro (sendCommandActs c) → c ≠ s.cfg.codes.swreset →
      ∃ t, exec i s = .next t ∧ ∀ a, t.ghost.panel.gram.readByte a = s.ghost.panel.gram.readByte a := by
    intro i c hi hc
    obtain ⟨t, hexec, hghost⟩ := exec_commandUnit hs hi
    exact ⟨t, hexec, fun a => by rw [hghost, Ghost.byte_command_gram, if_neg fun h => hc h.1]⟩
  have hlone : ∀ c ∈ s.cfg.codes.all.tail, c ≠ s.cfg.codes.swreset := by
    rintro c hc rfl
    exact (List.nodup_cons.mp hd).1 hc
  simp only [CmdCodes.all, List.tail_cons, List.forall_mem_cons] at hlone
  obtain ⟨hslpout, hnoron, hinvon, hdispon, hcaset, hraset, hramwr, hmadctl, hcolmod, -⟩ := hlone
  refine ⟨?_, ?_, fun hlive hrst => ?_, fun hrst => ?_⟩
  · simp only [List.forall_mem_cons]
    refine ⟨hcommand rfl hb, hcommand rfl hb, hcommand rfl hslpout, hcommand rfl hnoron, hcommand rfl hinvon,
      hcommand rfl hdispon, hcommand rfl hcaset, hcommand rfl hraset, hcommand rfl hramwr, hcommand rfl hmadctl,
      hcommand rfl hcolmod, ?_, nofun⟩
    exact ⟨_, (setAddressWindowCompletes s x₁ y₁ x₂ y₂).1 hs, fun a =>
      congrArg (Memory.readByte a) (Ghost.observeAll_windowEvents_gram hd s.dcLvl x₁ y₁ x₂ y₂ s.ghost)⟩
  · have hentry := Ghost.observeAll_regWriteEvents_gram hsw hw s.dcLvl s.ghost
    simp only [List.forall_mem_cons]
    exact ⟨⟨_, (regWriteCompletes s e).1 hs, fun a => congrArg (Memory.readByte a) hentry⟩,
      ⟨_, romRecordCompletes s e hs, fun a => congrArg (Memory.readByte a) hentry⟩, nofun⟩
  · obtain ⟨t, hexec, hghost⟩ := exec_commandUnit hs (i := .swreset) rfl
    refine ⟨t, hexec, fun a => ?_⟩
    rw [hghost, Ghost.byte_command_gram, if_pos ⟨rfl, hlive, hrst⟩]
    rfl
  · obtain ⟨hexec, hghost⟩ := (resetPulseCompletes s hs.2.2).1 hrst
    refine ⟨_, hexec, ?_⟩
    change (s.observed _).panel.status = _ ∧ (s.observed _).panel.rstHeld = _ ∧ (s.observed _).faults = _ ∧
      ∀ a, (s.observed _).panel.gram.readByte a = none
    rw [hghost]
    exact ⟨rfl, rfl, rfl, fun _ => rfl⟩

end Sys2Proof.Machine
end

section
/-! PROOFS. The reference ROM leaves a good panel (R131, R227). -/

namespace Sys2Proof.Machine

/-- A stream that harms no panel that takes bytes: it still takes bytes, with no new fault and the same format. -/
def KeepsGoodPanel (codes : CmdCodes) (es : List Event) : Prop :=
  ∀ (dc : Bool) (g : Ghost), g.panel.TakesBytes →
    (Ghost.observeAll codes dc es g).panel.TakesBytes ∧ (Ghost.observeAll codes dc es g).faults = g.faults ∧
      (Ghost.observeAll codes dc es g).panel.colmod = g.panel.colmod

section
variable {codes : CmdCodes}

theorem KeepsGoodPanel.append {es fs : List Event} (hes : KeepsGoodPanel codes es) (hfs : KeepsGoodPanel codes fs) :
    KeepsGoodPanel codes (es ++ fs) := by
  intro dc g h
  obtain ⟨htakes, hfaults, hcolmod⟩ := hes dc g h
  obtain ⟨htakes', hfaults', hcolmod'⟩ := hfs (es.foldl dcAfter dc) _ htakes
  rw [Ghost.observeAll_append]
  exact ⟨htakes', hfaults'.trans hfaults, hcolmod'.trans hcolmod⟩

theorem keepsGoodPanel_romEvents {rom : List RomEntry} (h : ∀ e ∈ rom, KeepsGoodPanel codes (regWriteEvents e)) :
    KeepsGoodPanel codes (romEvents rom) := by
  induction rom with
  | nil => exact fun _ _ h => ⟨h, rfl, rfl⟩
  | cons e rom ih =>
    exact (h e List.mem_cons_self).append (ih fun e' he' => h e' (List.mem_cons_of_mem _ he'))

theorem keepsGoodPanel_wait (k : WaitReason) (ms : Half) : KeepsGoodPanel codes [.wait k ms] := by
  rintro dc g ⟨hlive, hrst, hpend, hsettle⟩
  refine ⟨⟨hlive, hrst, hpend, ?_⟩, rfl, rfl⟩
  change g.panel.settle - ms.toNat = 0
  rw [hsettle, Nat.zero_sub]

/-- A lone command but SWRESET, with a delay that meets its bound. -/
theorem keepsGoodPanel_lone {c : Byte} {d : Half} (hc : c ≠ codes.ramwr) (hsw : c ≠ codes.swreset)
    (hd : settleBound codes c ≤ d.toNat) : KeepsGoodPanel codes (regWriteEvents ⟨c, [], some d⟩) := by
  intro dc g h
  obtain ⟨htakes, hfaults, hcolmod⟩ := Ghost.lone_keeps dc h hc hd
  exact ⟨htakes, hfaults, hcolmod hsw⟩

/-- The data of a command the observation gives no meaning to is recorded, and that is all (R59). -/
theorem Ghost.observeAll_payload_keeps {c : Byte} (hc : c ∉ [codes.ramwr, codes.caset, codes.raset, codes.colmod])
    (data : List Byte) (dc : Bool) {g : Ghost} (h : g.panel.TakesBytes) (hcmd : g.panel.cmd = some c) :
    (Ghost.observeAll codes dc (data.map dataEvents).flatten g).panel.TakesBytes ∧
      (Ghost.observeAll codes dc (data.map dataEvents).flatten g).faults = g.faults ∧
      (Ghost.observeAll codes dc (data.map dataEvents).flatten g).panel.colmod = g.panel.colmod := by
  induction data generalizing dc g with
  | nil => exact ⟨h, rfl, rfl⟩
  | cons b data ih =>
    obtain ⟨hlive, hrst, hpend, hsettle⟩ := h
    have hbyte : g.byte codes true b = { g with panel := g.panel.recordParam c b } := by
      rw [Ghost.byte_of_other ⟨hlive, hrst, hcmd⟩ hc, Ghost.receive_of_settled hsettle]
    change (Ghost.observeAll codes true _ (g.byte codes true b)).panel.TakesBytes ∧
      (Ghost.observeAll codes true _ (g.byte codes true b)).faults = _ ∧
      (Ghost.observeAll codes true _ (g.byte codes true b)).panel.colmod = _
    rw [hbyte]
    exact ih true ⟨hlive, hrst, hpend, hsettle⟩ hcmd

/-- An entry of a command the observation gives no meaning to, whatever its data and its delay. -/
theorem keepsGoodPanel_tuning {e : RomEntry} (he : e.cmd ∉ codes.all) : KeepsGoodPanel codes (regWriteEvents e) := by
  simp only [CmdCodes.all, List.mem_cons, List.not_mem_nil, or_false, not_or] at he
  obtain ⟨hsw, hslpout, hnoron, hinvon, hdispon, hcaset, hraset, hramwr, -, hcolmod⟩ := he
  have hsettles : settleBound codes e.cmd = 0 := by simp [settleBound, hsw, hslpout, hnoron, hinvon, hdispon]
  have hwrite : KeepsGoodPanel codes (commandEvents e.cmd ++ (e.data.map dataEvents).flatten) := by
    rintro dc g ⟨hlive, hrst, hpend, hsettle⟩
    have hcommand := Ghost.byte_command_of_live hlive hrst hramwr hsw
    rw [Ghost.checkSettle_of_settled hsettle, Ghost.dropOddByte_of_none hpend, hsettles] at hcommand
    rw [Ghost.observeAll_append]
    change (Ghost.observeAll codes _ _ (g.byte codes false e.cmd)).panel.TakesBytes ∧
      (Ghost.observeAll codes _ _ (g.byte codes false e.cmd)).faults = _ ∧
      (Ghost.observeAll codes _ _ (g.byte codes false e.cmd)).panel.colmod = _
    rw [hcommand]
    have hother : e.cmd ∉ [codes.ramwr, codes.caset, codes.raset, codes.colmod] := by
      simp [hramwr, hcaset, hraset, hcolmod]
    exact Ghost.observeAll_payload_keeps hother e.data _ ⟨hlive, hrst, rfl, rfl⟩ rfl
  cases hdelay : e.delay with
  | none => simpa [regWriteEvents, hdelay] using hwrite
  | some d => simpa [regWriteEvents, hdelay] using hwrite.append (keepsGoodPanel_wait WaitReason.settle d)

end

/-- What MADCTL's and COLMOD's entries leave of a panel that takes bytes. -/
theorem Ghost.madctl_or_colmod_keeps {codes : CmdCodes} (hd : codes.Distinct) {c b : Byte}
    (hc : c ∈ [codes.madctl, codes.colmod]) {g : Ghost} (dc : Bool) (h : g.panel.TakesBytes) :
    (Ghost.observeAll codes dc (regWriteEvents ⟨c, [b], none⟩) g).panel.TakesBytes ∧
    (Ghost.observeAll codes dc (regWriteEvents ⟨c, [b], none⟩) g).faults = g.faults ∧
    (Ghost.observeAll codes dc (regWriteEvents ⟨c, [b], none⟩) g).panel.colmod =
      if c = codes.colmod then some b else g.panel.colmod := by
  have hother : c ∉ [codes.swreset, codes.slpout, codes.noron, codes.invon, codes.dispon, codes.caset, codes.raset,
      codes.ramwr] := fun hc' => List.disjoint_of_nodup_append hd hc' hc
  simp only [List.mem_cons, List.not_mem_nil, or_false, not_or] at hother
  obtain ⟨hsw, -, -, -, -, hcaset, hraset, hramwr⟩ := hother
  have hsettles :=
    (CmdCodes.settleBound_of_distinct hd (List.mem_append_right [codes.caset, codes.raset, codes.ramwr] hc)).2
  exact Ghost.single_keeps dc h hramwr hsettles hsw hcaset hraset

/-- The bounds of the lone commands of the composition (R58). -/
theorem CmdCodes.settleBound_le {codes : CmdCodes} (hd : codes.Distinct) :
    (∀ c, settleBound codes c ≤ 120) ∧ settleBound codes codes.invon ≤ 10 ∧ settleBound codes codes.noron ≤ 10 := by
  refine ⟨fun c => ?_, ?_⟩
  · unfold settleBound
    split_ifs <;> omega
  · rw [CmdCodes.settleBound_eq_of_distinct hd, CmdCodes.settleBound_eq_of_distinct hd]
    simp only [CmdCodes.Distinct, CmdCodes.all, List.nodup_cons, List.mem_cons, not_or] at hd
    grind

/-- Settles O51: COLMOD's entry makes the format 0x55, and the entries after it keep it. -/
theorem referenceRomIsQuiet : Obligations.ReferenceRomIsQuiet := by
  intro codes swapRb t tuning hd hswreset hslpout hinvon hnoron hdispon htuning
  obtain ⟨hbound, hboundInvon, hboundNoron⟩ := CmdCodes.settleBound_le hd
  have hswresetw : codes.swreset ≠ codes.ramwr := CmdCodes.ne_of_lone hd (by simp) (by simp)
  have hlone : ∀ c ∈ [codes.slpout, codes.noron, codes.invon, codes.dispon], c ≠ codes.ramwr ∧ c ≠ codes.swreset := by
    refine fun c hc => ⟨CmdCodes.ne_of_lone hd (List.mem_cons_of_mem _ hc) (by simp), ?_⟩
    rintro rfl
    exact (List.nodup_cons.mp hd).1 (List.mem_append_left _ hc)
  simp only [List.forall_mem_cons] at hlone
  obtain ⟨⟨hslpoutw, -⟩, ⟨hnoronw, hnorons⟩, ⟨hinvonw, hinvons⟩, ⟨hdisponw, hdispons⟩, -⟩ := hlone
  have htail : KeepsGoodPanel codes (romEvents (⟨codes.madctl, [madctlData swapRb], none⟩ :: (tuning ++
      [⟨codes.invon, [], some t.invon⟩, ⟨codes.noron, [], some t.noron⟩, ⟨codes.dispon, [], some t.dispon⟩]))) := by
    refine keepsGoodPanel_romEvents ?_
    simp only [List.forall_mem_cons, List.forall_mem_append]
    refine ⟨fun dc g h => ?_, fun e he => keepsGoodPanel_tuning (htuning e he),
      keepsGoodPanel_lone hinvonw hinvons (hboundInvon.trans hinvon),
      keepsGoodPanel_lone hnoronw hnorons (hboundNoron.trans hnoron),
      keepsGoodPanel_lone hdisponw hdispons ((hbound _).trans hdispon), nofun⟩
    obtain ⟨htakes, hfaults, hcolmod⟩ :=
      Ghost.madctl_or_colmod_keeps (c := codes.madctl) (b := madctlData swapRb) hd (by simp) dc h
    exact ⟨htakes, hfaults, hcolmod.trans (if_neg (CmdCodes.madctl_ne_colmod hd))⟩
  intro dc g hlive hrst hpend hsettle
  obtain ⟨htakes₁, hfaults₁, -⟩ :=
    Ghost.lone_keeps dc ⟨hlive, hrst, hpend, hsettle⟩ hswresetw ((hbound _).trans hswreset)
  obtain ⟨htakes₂, hfaults₂, -⟩ := Ghost.lone_keeps _ htakes₁ hslpoutw ((hbound _).trans hslpout)
  obtain ⟨htakes₃, hfaults₃, hcolmod₃⟩ :=
    Ghost.madctl_or_colmod_keeps (c := codes.colmod) (b := colmodData) hd (by simp) _ htakes₂
  obtain ⟨⟨hlive', hrst', hpend', hsettle'⟩, hfaults', hcolmod'⟩ := htail _ _ htakes₃
  rw [if_pos rfl] at hcolmod₃
  change (Ghost.observeAll codes dc (romEvents (_ :: _ :: _ :: _ :: (tuning ++ _))) g).faults = _ ∧
    (Ghost.observeAll codes dc (romEvents (_ :: _ :: _ :: _ :: (tuning ++ _))) g).panel.PixelReady
  rw [romEvents_cons, Ghost.observeAll_append, romEvents_cons, Ghost.observeAll_append, romEvents_cons,
    Ghost.observeAll_append]
  exact ⟨hfaults'.trans (hfaults₃.trans (hfaults₂.trans hfaults₁)), hlive', hrst', hpend', hsettle',
    hcolmod'.trans hcolmod₃⟩

end Sys2Proof.Machine
end

section
/-! PROOFS. Fault-freedom is kept by every step, and the five invariants hold at power-on (R227, R54). -/

namespace Sys2Proof.Machine

/-- No ghost fault, a panel that takes bytes, and 0x55 as its format when READY (R227). -/
def State.Healthy (s : State) : Prop :=
  s.ghost.faults = [] ∧ s.ghost.panel.TakesBytes ∧ (s.ready = true → s.ghost.panel.colmod = some colmodData)

theorem State.faultFree_iff (s : State) : s.FaultFree ↔ s.GoodSetting ∧ s.inProgress = false ∧ s.Healthy := by
  simp only [State.FaultFree, State.Healthy, Panel.TakesBytes, and_assoc]

/-- An operation has run to its end: what the setting and the port see of it. -/
structure State.Completes (s t : State) : Prop where
  cfg : t.cfg = s.cfg
  inputs : t.inputs = s.inputs
  inProgress : t.inProgress = s.inProgress
  pauses : t.pauses = s.pauses
  transport : ∃ n, t.transport = s.transport.after n


theorem State.GoodSetting.of_completes {s t : State} (h : s.GoodSetting) (hc : s.Completes t) : t.GoodSetting := by
  obtain ⟨hdistinct, hrom, ⟨hscript, hrest, hpauses⟩, hports⟩ := h
  obtain ⟨n, htransport⟩ := hc.transport
  rw [State.GoodSetting, hc.cfg, hc.inputs, State.Undisturbed, htransport, hc.pauses]
  exact ⟨hdistinct, hrom, ⟨fun a ha => hscript a (List.mem_of_mem_drop ha), hrest, hpauses⟩, hports⟩

theorem State.FaultFree.of_completes {s t : State} (h : s.FaultFree) (hc : s.Completes t) (hhealthy : t.Healthy) :
    t.FaultFree := by
  obtain ⟨hsetting, hidle, -⟩ := s.faultFree_iff.mp h
  exact t.faultFree_iff.mpr ⟨hsetting.of_completes hc, hc.inProgress.trans hidle, hhealthy⟩

/-- Ready, the panel is as R168 asks. -/
theorem State.Healthy.pixelReady {s : State} (h : s.Healthy) (hr : s.ready = true) : s.ghost.panel.PixelReady := by
  obtain ⟨-, ⟨hlive, hrst, hpend, hsettle⟩, hcolmod⟩ := h
  exact ⟨hlive, hrst, hpend, hsettle, hcolmod hr⟩

theorem State.healthy_of_pixelReady {s : State} (hfaults : s.ghost.faults = []) (h : s.ghost.panel.PixelReady) :
    s.Healthy := by
  obtain ⟨hlive, hrst, hpend, hsettle, hcolmod⟩ := h
  exact ⟨hfaults, ⟨hlive, hrst, hpend, hsettle⟩, fun _ => hcolmod⟩

section
variable {s t : State}

theorem State.FaultFree.setup (h : s.FaultFree) (ha : s.accepts = true) (hexec : exec .setup s = .next t) :
    t.FaultFree := by
  obtain ⟨⟨-, ⟨rom, hrom, hquiet⟩, hs, -⟩, -, hfaults, ⟨hlive, hrst, hpend, hsettle⟩, -⟩ := s.faultFree_iff.mp h
  obtain ⟨l, -, hexec'⟩ := (setupCompletes s rom ha hrom).1 hs
  obtain rfl := Host.Outcome.next.inj (hexec.symm.trans hexec')
  refine h.of_completes ⟨rfl, rfl, rfl, rfl, _, rfl⟩ ?_
  have hpanel := Ghost.observeAll_setupEvents s.cfg.codes s.dcLvl s.cfg rom s.ghost
  have hgood : (s.observed (setupEvents s.cfg rom)).faults = [] ∧
      (s.observed (setupEvents s.cfg rom)).panel.PixelReady := by
    rw [State.observed, hpanel]
    cases s.cfg.hasRst with
    | true => exact hfaults ▸ hquiet false ⟨Panel.initial, s.ghost.faults⟩ rfl rfl rfl rfl
    | false => exact hfaults ▸ hquiet false s.ghost hlive hrst hpend hsettle
  exact State.healthy_of_pixelReady hgood.1 hgood.2

/-- FILL, and PIXEL inside the panel, paint a ready panel. -/
theorem State.FaultFree.painted (h : s.FaultFree) (hr : s.ready = true) {x₁ y₁ x₂ y₂ c : Half} {n : Nat}
    (hvalid : windowValid (x₁, x₂) (y₁, y₂) = true)
    (hn : n ≤ windowSize x₁.toNat y₁.toNat x₂.toNat y₂.toNat) (hc : s.Completes t)
    (hghost : t.ghost = s.observed (windowEvents s.cfg.codes x₁ y₁ x₂ y₂ ++ runEvents c n)) : t.FaultFree := by
  obtain ⟨⟨hdistinct, -⟩, -, hhealthy⟩ := s.faultFree_iff.mp h
  have hpainted := Ghost.painted_window_run (c := c) hdistinct (hhealthy.pixelReady hr) hvalid s.dcLvl n
  refine h.of_completes hc (State.healthy_of_pixelReady ?_ ?_)
  · rw [hghost]
    exact (hpainted.faults hn).trans hhealthy.1
  · rw [hghost]
    exact hpainted.ready

theorem State.FaultFree.fill (h : s.FaultFree) (ha : s.accepts = true) {r g b : Byte}
    (hexec : exec (.fill r g b) s = .next t) : t.FaultFree := by
  obtain ⟨⟨-, -, hs, -⟩, -, hhealthy⟩ := s.faultFree_iff.mp h
  cases hr : s.ready with
  | false =>
    obtain ⟨l, hexec'⟩ := (fillWritesOneRun s r g b ha).1 hs.2.2 hr
    obtain rfl := Host.Outcome.next.inj (hexec.symm.trans hexec')
    exact h.of_completes ⟨rfl, rfl, rfl, rfl, 0, rfl⟩ hhealthy
  | true =>
    obtain ⟨l, -, -, -, -, hexec'⟩ := ((fillWritesOneRun s r g b ha).2 hr).1 hs
    have hpaint := h.painted (t := t) (c := toNative s.cfg.swapRb r g b) (n := 57600) hr
      (x₁ := 0) (y₁ := 0) (x₂ := 239) (y₂ := 239) (by decide) (by simp)
    -- The trace stays a variable: its 115235 events are not to be evaluated.
    generalize windowEvents s.cfg.codes 0 0 239 239 ++ runEvents (toNative s.cfg.swapRb r g b) 57600 = evs
      at hexec' hpaint
    obtain rfl := Host.Outcome.next.inj (hexec.symm.trans hexec')
    exact hpaint ⟨rfl, rfl, rfl, rfl, _, rfl⟩ rfl

theorem State.FaultFree.pixel (h : s.FaultFree) (ha : s.accepts = true) {x y : Half} {r g b : Byte}
    (hexec : exec (.pixel x y r g b) s = .next t) : t.FaultFree := by
  obtain ⟨⟨-, -, hs, -⟩, -, hhealthy⟩ := s.faultFree_iff.mp h
  by_cases hwritten : s.ready = true ∧ inPanel x y = true
  · obtain ⟨hr, hin⟩ := hwritten
    obtain rfl := Host.Outcome.next.inj (hexec.symm.trans (exec_pixel_of_written ha hs hr hin r g b))
    have hsize : windowSize x.toNat y.toNat x.toNat y.toNat = 1 := by simp
    exact h.painted hr (windowValid_of_inPanel hin).1 hsize.ge ⟨rfl, rfl, rfl, rfl, _, rfl⟩ rfl
  · have hnot : s.ready = false ∨ inPanel x y = false := by
      simpa only [not_and_or, Bool.not_eq_true] using hwritten
    obtain ⟨l, hexec'⟩ := exec_pixel_of_not_written ha hs.2.2 hnot r g b
    obtain rfl := Host.Outcome.next.inj (hexec.symm.trans hexec')
    exact h.of_completes ⟨rfl, rfl, rfl, rfl, 0, rfl⟩ hhealthy

theorem State.FaultFree.update (h : s.FaultFree) (ha : s.accepts = true) (hexec : exec .update s = .next t) :
    t.FaultFree := by
  obtain ⟨⟨-, -, hs, -⟩, -, hhealthy⟩ := s.faultFree_iff.mp h
  cases hr : s.ready with
  | false =>
    obtain ⟨l, -, hexec'⟩ := (updateReports s ha hs.2.2).1 hr
    obtain rfl := Host.Outcome.next.inj (hexec.symm.trans hexec')
    exact h.of_completes ⟨rfl, rfl, rfl, rfl, 0, rfl⟩ hhealthy
  | true =>
    obtain ⟨l, -, hexec'⟩ := (updateReports s ha hs.2.2).2 hr
    obtain rfl := Host.Outcome.next.inj (hexec.symm.trans hexec')
    exact h.of_completes ⟨rfl, rfl, rfl, rfl, 0, rfl⟩ hhealthy

theorem State.FaultFree.rejectDescriptor (h : s.FaultFree) (ha : s.accepts = true)
    (hexec : s.rejectDescriptor = .next t) : t.FaultFree := by
  obtain ⟨⟨-, -, hs, -⟩, -, hhealthy⟩ := s.faultFree_iff.mp h
  obtain rfl := Host.Outcome.next.inj (hexec.symm.trans (State.rejectDescriptor_of_accepts ha hs.2.2))
  exact h.of_completes ⟨rfl, rfl, rfl, rfl, 0, rfl⟩ hhealthy

/-- An operation of the descriptor port. -/
theorem State.FaultFree.exec (h : s.FaultFree) (ha : s.accepts = true) {w : Descriptor} {i : Instr}
    (hdec : decodeDescriptor w = .ok i) (hexec : exec i s = .next t) : t.FaultFree := by
  obtain ⟨⟨-, -, hs, -⟩, -, hhealthy⟩ := s.faultFree_iff.mp h
  have hrow := decodesTo_decodeDescriptor w
  rw [hdec] at hrow
  cases hrow with
  | setup => exact h.setup ha hexec
  | update => exact h.update ha hexec
  | dumpConfig =>
    obtain ⟨l, -, hexec'⟩ := dumpConfigReports s ha hs.2.2
    obtain rfl := Host.Outcome.next.inj (hexec.symm.trans hexec')
    exact h.of_completes ⟨rfl, rfl, rfl, rfl, 0, rfl⟩ hhealthy
  | fill => exact h.fill ha hexec
  | pixel => exact h.pixel ha hexec
  | convert =>
    obtain ⟨l, -, -, -, -, hexec'⟩ := (conversionsComplete s _ _ _ hs.2.2).2 ha
    obtain rfl := Host.Outcome.next.inj (hexec.symm.trans hexec')
    exact h.of_completes ⟨rfl, rfl, rfl, rfl, 0, rfl⟩ hhealthy
  | illegal hill =>
    rcases isIllegal_iff.mp hill with ⟨r, hi⟩ | ⟨u, hi⟩ | ⟨u, hi⟩ | ⟨v, hi⟩ <;> cases hi
    · exact h.rejectDescriptor ha hexec
    · exact h.rejectDescriptor ha hexec
    · exact h.rejectDescriptor ha hexec

/-- Some of what is presented is taken. -/
theorem State.FaultFree.inputs (h : s.FaultFree) {ins : List Input} (hins : ∀ i ∈ ins, i ∈ s.inputs) :
    ({ s with opDone := false, inputs := ins } : State).FaultFree := by
  obtain ⟨⟨hdistinct, hrom, hs, hports⟩, hhealthy⟩ := h
  exact ⟨⟨hdistinct, hrom, hs, fun i hi => hports i (hins i hi)⟩, hhealthy⟩

theorem State.FaultFree.read (h : s.FaultFree) {a : RegAddr} (hexec : Machine.exec (.read a) s = .next t) :
    t.FaultFree := by
  cases hexec
  exact h

end

/-- Settles O52: between operations a step runs one operation of the port, reads a register or takes nothing. -/
theorem stepKeepsFaultFreedom : Obligations.StepKeepsFaultFreedom := by
  intro s t h hstep
  have htail : ∀ {x : Input} {rest : List Input}, s.inputs = x :: rest →
      ({ s with opDone := false, inputs := rest } : State).FaultFree :=
    fun hi => h.inputs fun _ hmem => by simp [hi, hmem]
  obtain ⟨⟨-, -, -, hports⟩, hidle, -⟩ := s.faultFree_iff.mp h
  rcases step_cases hstep with ⟨l, rest, hi, -⟩ | ⟨a, rest, hi, hexec⟩ | ⟨c, i, rest, hi, ha, hdec, hexec⟩ |
    ⟨w, r, rest, hi, ha, -, hrej⟩ | ⟨-, -, -, hbusy, -, -⟩ | ⟨ins, hi, rfl⟩
  · rcases hports (.rstN l) (by simp [hi]) with ⟨w, hw⟩ | ⟨a, ha⟩ | hp
    · cases hw
    · cases ha
    · cases hp
  · exact (htail hi).read hexec
  · rcases hports (.code c) (by simp [hi]) with ⟨w, hw⟩ | ⟨a, ha'⟩ | hp
    · cases hw
      exact (htail hi).exec ha hdec hexec
    · cases ha'
      cases hdec
      exact (htail hi).read hexec
    · cases hp
  · exact (htail hi).rejectDescriptor ha hrej
  · rw [hidle] at hbusy
    cases hbusy
  · refine h.inputs fun i hmem => ?_
    rcases hi with ⟨rfl, -⟩ | hi
    · exact hmem
    · simp [hi, hmem]

/-- The reference image is the reference composition with an empty tuning table (R131, R140). -/
theorem initRom_reference :
    initRom Config.reference = some (referenceRom CmdCodes.default false SettleTimes.reference []) := by decide

theorem distinct_default : CmdCodes.default.Distinct := by decide

/-- Settles O56: the reference ROM is quiet; the rest are the fields of the power-on state. -/
theorem resetMeetsTheInvariants : Obligations.ResetMeetsTheInvariants := by
  have hquiet := referenceRomIsQuiet CmdCodes.default false SettleTimes.reference [] distinct_default (by decide)
    (by decide) (by decide) (by decide) (by decide) nofun
  have hundisturbed : State.reset.Undisturbed := by decide
  have hframed : State.reset.Framed :=
    ⟨nofun, .closed, .closed, rfl, rfl, nofun, nofun⟩
  refine ⟨⟨⟨distinct_default, ⟨_, initRom_reference, hquiet⟩, hundisturbed, nofun⟩, rfl, rfl, rfl, rfl, rfl, rfl, nofun⟩,
    ?_, ?_, rfl, hframed⟩
  · exact ⟨⟨List.Pairwise.nil, nofun⟩, List.Pairwise.nil, nofun, nofun⟩
  · exact ⟨nofun, nofun⟩

end Sys2Proof.Machine
end
